-- ==== Sys2Proof/Word.lean ====
section
/-! DEFINITION. The block's words: every width is 00_scope.md rule R10's (decision D2), all unsigned. -/

namespace Sys2Proof

/-- One byte of a command word on a byte-wide path (R55, R78). -/
abbrev Byte := BitVec 8
/-- A command word (R70). -/
abbrev CmdWord := BitVec 128
/-- A code to send or a decoded code (R10). -/
abbrev Code := BitVec 64
/-- A protocol index (R10). -/
abbrev ProtoIdx := BitVec 8
/-- A unit count of a profile (R102). -/
abbrev UnitCount := BitVec 8
/-- A pulse length in microseconds (R10, R102). -/
abbrev PulseLen := BitVec 24
/-- A duration in microseconds: a drive operation's, or an entry of the receive buffer (R10). -/
abbrev Dur := BitVec 32
/-- A repeat count (R10). -/
abbrev RepeatCount := BitVec 16
/-- A bit-length override, an emitted width or a decoded bit length (R10, R24, R86). -/
abbrev BitLen := BitVec 8
/-- A fill level of the receive buffer (R10, R27). -/
abbrev FillLevel := BitVec 9
/-- A timestamp in microseconds (R10). -/
abbrev Stamp := BitVec 32

/-- A level of the transmit pin (R15). -/
inductive Level where
  | L
  | H
  deriving DecidableEq, Repr, Inhabited

/-- A drive operation: a level and how long it is held (R15, R79). -/
structure DriveOp where
  level : Level
  dur : Dur
  deriving DecidableEq, Repr, Inhabited

end Sys2Proof
end

