-- ==== Sys2Proof/Config.lean ====
section
/-! DEFINITION. What the environment fixes before the first command (R275), and the free values: the shape of the
Protocol Table, the table a run uses (uninterpreted: R104 leaves its values open), and the values the spec leaves
unspecified (uninterpreted: 93 I3, I8). -/

namespace Sys2Proof

/-- The seven fields of a profile as a configuration gives them, checked or not (R102). -/
structure RawProfile where
  pulseLength : PulseLen
  syncHigh : UnitCount
  syncLow : UnitCount
  zeroHigh : UnitCount
  zeroLow : UnitCount
  oneHigh : UnitCount
  oneLow : UnitCount
  deriving DecidableEq, Repr, Inhabited

/-- R103: the pulse length and each of the six counts is at least 1 (a count's upper bound 255 is its width). -/
abbrev RawProfile.Legal (p : RawProfile) : Prop :=
  1 ≤ p.pulseLength.toNat ∧ 1 ≤ p.syncHigh.toNat ∧ 1 ≤ p.syncLow.toNat ∧ 1 ≤ p.zeroHigh.toNat ∧
    1 ≤ p.zeroLow.toNat ∧ 1 ≤ p.oneHigh.toNat ∧ 1 ≤ p.oneLow.toNat

/-- A profile that has passed R103's check. -/
structure Profile extends RawProfile where
  legal : toRawProfile.Legal
  deriving DecidableEq, Repr

/-- The Protocol Table: `profiles` holds PT[1], PT[2], …, PT[N_PROTO] in order, with 1 ≤ N_PROTO ≤ 255 (R10, R50).
PT[0] is reserved and never read, so it is not represented (R51). -/
structure ProtoTable where
  profiles : List Profile
  nonempty : 1 ≤ profiles.length
  bounded : profiles.length ≤ 255
  deriving DecidableEq, Repr

/-- N_PROTO of a table (R10). -/
def ProtoTable.nProto (t : ProtoTable) : Nat := t.profiles.length

/-- The profile of all ones: the stand-in of `RawProfile.legalize` for values that are no profile. -/
def Profile.ones : Profile := ⟨⟨1, 1, 1, 1, 1, 1, 1⟩, by decide⟩

/-- The profile itself when it is legal. -/
def RawProfile.legalize (p : RawProfile) : Profile := if h : p.Legal then ⟨p, h⟩ else Profile.ones

/-- N_PROTO of the table a run from reset uses: the default catalog's six entries (R10). -/
def Config.nProto : Nat := 6

/-- PROTO_TABLE's values, which no source gives (R104, D3): uninterpreted. Log entry 1. -/
opaque Config.profileValues : Nat → RawProfile

/-- The table a run from reset uses: any legal table of six profiles (R103, R104), and nothing tells which.
Log entries 1 and 2. -/
def Config.protoTable : ProtoTable where
  profiles := (List.range Config.nProto).map fun k => (Config.profileValues (k + 1)).legalize
  nonempty := by simp [Config.nProto]
  bounded := by simp [Config.nProto]

/-- The free values of transmit fields whose contents the spec leaves unspecified (R24, R31, R270; 93 I8): the k-th
value drawn, at the field's width. Log entry 9. -/
opaque Config.freeBits : Nat → (w : Nat) → BitVec w

/-- The free value of the transmit pin's level after a failed drive (R26; 93 I3): the k-th drawn. Log entry 8. -/
opaque Config.freeLevel : Nat → Level

end Sys2Proof
end

