-- ==== Sys2Proof/Machine/Params.lean ====
section
/-! DEFINITION. The block's numeric constants, each named once as R11 asks (values: R10). -/

namespace Sys2Proof.Machine

/-- QUIET_GAP_US: an edge is a frame boundary when its duration is greater (R10, R202). -/
def quietGapUs : Nat := 2000
/-- MAX_CHANGES: the fill level at which a further edge overflows (R10, R208). -/
abbrev maxChanges : Nat := 256
/-- The entries of the receive buffer, RX capacity: MAX_CHANGES + 1 (R10, R52). -/
abbrev rxCapacity : Nat := maxChanges + 1
/-- MIN_EDGES: a decode needs more entries than this (R10, R163). -/
def minEdges : Nat := 48
/-- TOL in percent (R10, R160). -/
def tolPercent : Nat := 20
/-- BL_THRESHOLD: above it the bit-length heuristic takes 32 bits (R10, R123). -/
def blThreshold : Nat := 16777216
/-- The heuristic's bit length for a code above the threshold (R123). -/
def blLong : Nat := 32
/-- The heuristic's bit length for any other code (R123). -/
def blShort : Nat := 24
/-- NOISE_MIN_LEN: a decode is kept when its rendered length is greater (R10, R204). -/
def noiseMinLen : Nat := 32
/-- NOISE_RUN: the four-character substring "0000" that marks noise (R10, R204). -/
def noiseRun : List Bool := [false, false, false, false]

end Sys2Proof.Machine
end

