-- ==== Sys2Proof/Machine/Operands.lean ====
section
/-! DEFINITION. The operands of a send: the pulse length in effect, the selected bit length and the emitted width (R122 to R124), and
the minimal binary rendering they and the noise check use (R13). -/

namespace Sys2Proof.Machine

/-- `bitlen1(v)` (R13): the number of characters of the minimal binary rendering of v. -/
def bitlen1 (v : Nat) : Nat := if v = 0 then 1 else Nat.log2 v + 1

/-- The low `k` bits of `v`, the most significant of them first. -/
def msbBits (v : Nat) : Nat → List Bool
  | 0 => []
  | k + 1 => v.testBit k :: msbBits v k

/-- `render(v)` (R13): the minimal binary rendering, read left to right. -/
def render (v : Nat) : List Bool := msbBits v (bitlen1 v)

/-- `s ⊑ t` (R13): `s` occurs as a contiguous substring of `t`. -/
def occursIn (s : List Bool) : List Bool → Bool
  | [] => s.isEmpty
  | c :: t => s.isPrefixOf (c :: t) || occursIn s t

/-- The pulse length in effect (R122). -/
def pulseInEffect (prof : Profile) (plv : Bool) (pl : PulseLen) : PulseLen := if plv then pl else prof.pulseLength

/-- The selected bit length BL (R123). -/
def selectedBitLength (code : Code) (blv : Bool) (bl : BitLen) : Nat :=
  if blv then bl.toNat else if code.toNat > blThreshold then blLong else blShort

/-- The emitted data width W (R124). -/
def dataWidth (code : Code) (blv : Bool) (bl : BitLen) : Nat :=
  max (selectedBitLength code blv bl) (bitlen1 code.toNat)

end Sys2Proof.Machine
end

