-- ==== Sys2Proof/Machine/Decoder.lean ====
section
/-! DEFINITION. The receive decoder: TRY_DECODE and its parts (R160 to R177). Durations and expected durations are
compared as natural numbers, exactly (R13, R160). -/

namespace Sys2Proof.Machine

/-- `abs(a - b)`. -/
def absDiff (a b : Nat) : Nat := (a - b) + (b - a)

/-- `within(m, e)` (R160). -/
def within (m e : Nat) : Bool := decide (absDiff m e * 100 ≤ tolPercent * e)

/-- An expected duration: a count times the profile's own pulse length (R161). -/
def expected (prof : Profile) (c : UnitCount) : Nat := c.toNat * prof.pulseLength.toNat

/-- The pair fits the zero pair (R166). -/
def fitsZero (prof : Profile) (h l : Nat) : Bool :=
  within h (expected prof prof.zeroHigh) && within l (expected prof prof.zeroLow)

/-- The pair fits the one pair (R166). -/
def fitsOne (prof : Profile) (h l : Nat) : Bool :=
  within h (expected prof prof.oneHigh) && within l (expected prof prof.oneLow)

/-- The deviation of the pair from the zero pair, `dz` (R167). -/
def devZero (prof : Profile) (h l : Nat) : Nat :=
  absDiff h (expected prof prof.zeroHigh) + absDiff l (expected prof prof.zeroLow)

/-- The deviation of the pair from the one pair, `do` (R167). -/
def devOne (prof : Profile) (h l : Nat) : Nat :=
  absDiff h (expected prof prof.oneHigh) + absDiff l (expected prof prof.oneLow)

/-- `NEAREST(h, l, prof)` (R167): 1 when the one pair is strictly nearer, 0 otherwise. -/
def nearest (prof : Profile) (h l : Nat) : Bool := decide (devOne prof h l < devZero prof h l)

/-- `CLASSIFY(h, l, prof)` (R166): the symbol bit, `none` for NONE. -/
def classify (prof : Profile) (h l : Nat) : Option Bool :=
  match fitsZero prof h l, fitsOne prof h l with
  | true, true => some (nearest prof h l)
  | false, true => some true
  | true, false => some false
  | false, false => none

/-- The closing marker test (R169). -/
def isMarker (prof : Profile) (h l : Nat) : Bool :=
  within h (expected prof prof.syncHigh) && within l (expected prof prof.syncHigh)

/-- The pair walk (R165 to R172): the symbol bits classified after the framing bit, in arrival order, once the closing
marker is met; `none` is NoMatch. `framed` says that the framing bit has been passed. Entries after the marker are not
looked at (R171). Log entry 14. -/
def walk (prof : Profile) : Bool → List Nat → Option (List Bool)
  | framed, h :: l :: rest =>
    match classify prof h l with
    | some b => if framed then (walk prof true rest).map (b :: ·) else walk prof true rest
    | none => if framed && isMarker prof h l then some [] else none
  | _, [_] => none
  | _, [] => none

/-- A bit string as a number, the first bit the most significant (R172, R174). -/
def bitsValue (bs : List Bool) : Nat := bs.foldl (fun acc b => 2 * acc + b.toNat) 0

/-- Undoubling (R173): "01" gives 0, "10" gives 1, "00" and "11" give NoMatch. -/
def undouble : List Bool → Option (List Bool)
  | [] => some []
  | [_] => none
  | false :: true :: rest => (undouble rest).map (false :: ·)
  | true :: false :: rest => (undouble rest).map (true :: ·)
  | false :: false :: _ => none
  | true :: true :: _ => none

/-- What a Match carries (R176). -/
structure Match where
  code : Nat
  bitLength : Nat
  pulseLengthUs : Nat
  raw : Nat
  rc : Nat
  deriving DecidableEq, Repr

/-- The inferred pulse length (R175). -/
def inferredPulse (prof : Profile) (e0 e1 : Nat) : Nat := (e0 + e1) / (prof.syncHigh.toNat + prof.syncLow.toNat)

/-- The end of a decode (R172 to R176): an odd count is NoMatch, then the bits are undoubled. -/
def finalize (prof : Profile) (e0 e1 : Nat) (raw : List Bool) : Option Match :=
  if raw.length % 2 = 1 then none
  else
    (undouble raw).map fun logical =>
      { code := bitsValue logical, bitLength := raw.length / 2, pulseLengthUs := inferredPulse prof e0 e1,
        raw := bitsValue raw, rc := raw.length }

/-- `TRY_DECODE(RXB, n, p)` (R177) on the entries RXB[0..n-1] and profile p: `none` is NoMatch. -/
def tryDecode (entries : List Nat) (prof : Profile) : Option Match :=
  if entries.length ≤ minEdges then none
  else
    match entries with
    | e0 :: e1 :: rest =>
      if within e0 (expected prof prof.syncHigh) && within e1 (expected prof prof.syncLow) then
        (walk prof false rest).bind (finalize prof e0 e1)
      else none
    | _ => none

end Sys2Proof.Machine
end

