-- ==== Sys2Proof/Syntax.lean ====
section
/-! DEFINITION. The instructions: one constructor per row of spec/opcode_table.json. The first four are the command
words of R72; `send` is the pseudo-instruction of R140; the `line…` and `symbits…` rows are the line code of R80 to
R83, stretches of a frame and no command words. -/

namespace Sys2Proof

/-- One constructor per row of the opcode table. -/
inductive Instr where
  /-- TX_SEND: every field of the word, the PL and BL fields also where PLV or BLV says they are ignored (R73, R130). -/
  | txSend (proto : ProtoIdx) (plv blv : Bool) (repeatCount : RepeatCount) (pl : PulseLen) (bl : BitLen) (code : Code)
  /-- DRV_RESP: the output driver's answer, `ok` or failed (R74, R136). -/
  | drvResp (ok : Bool)
  /-- RX_EDGE: one transition of the receive pin, with its timestamp (R76, R200). -/
  | rxEdge (ts : Stamp)
  /-- RESET (R77, R270). -/
  | reset
  /-- SEND code, proto, rep (R140). -/
  | send (code : Code) (proto : ProtoIdx) (repeatCount : RepeatCount)
  /-- LINE_SYNC_OPEN: the opening sync pair (R83). -/
  | lineSyncOpen
  /-- LINE_SYM1: the pulse pair of a symbol bit 1 (R82). -/
  | lineSym1
  /-- LINE_SYM0: the pulse pair of a symbol bit 0 (R82). -/
  | lineSym0
  /-- LINE_CLOSE_MARK: the closing marker pair (R83). -/
  | lineCloseMark
  /-- SYMBITS_DATA0: the symbol bits "01" of a data bit 0 (R80). -/
  | symbitsData0
  /-- SYMBITS_DATA1: the symbol bits "10" of a data bit 1 (R80). -/
  | symbitsData1
  /-- SYMBITS_FRAMING: the single framing symbol bit "1" (R81). -/
  | symbitsFraming
  deriving DecidableEq, Repr

end Sys2Proof
end

