-- ==== Sys2Proof/WellFormed.lean ====
section
/-! DEFINITION. Which instructions are command words of the input port (R70, R72). Every field value of such a word is
taken (R88), so the checks are about the kind of instruction, not about its fields. -/

namespace Sys2Proof

/-- The instruction is a pseudo-instruction: another spelling of a command word (R89, R140). -/
def Instr.isPseudo : Instr → Bool
  | .send _ _ _ => true
  | .txSend .. | .drvResp _ | .rxEdge _ | .reset | .lineSyncOpen | .lineSym1 | .lineSym0 | .lineCloseMark
  | .symbitsData0 | .symbitsData1 | .symbitsFraming => false

/-- The instruction is a piece of the line code: it is on the output side and never presented as a command (R79 to R83). -/
def Instr.isLineCode : Instr → Bool
  | .lineSyncOpen | .lineSym1 | .lineSym0 | .lineCloseMark | .symbitsData0 | .symbitsData1 | .symbitsFraming => true
  | .txSend .. | .drvResp _ | .rxEdge _ | .reset | .send _ _ _ => false

/-- R90: a word decodes to one of TX_SEND, DRV_RESP, RX_EDGE, RESET and to nothing else. -/
def Instr.wellFormed (i : Instr) : Bool := !i.isPseudo && !i.isLineCode

end Sys2Proof
end

