-- ==== Sys2Proof/Decode.lean ====
section
/-! DEFINITION. Decoding of command words, total on every word and on any bytes (R70 to R78, R90), and the encoder
written from the same tables. -/

namespace Sys2Proof

/-- Why a word or a run of bytes is no command. -/
inductive Reject where
  /-- OP is 0x0 or 0x4 to 0xE (R75). -/
  | reservedOpcode
  /-- A reserved bit of the command is not 0 (R75). -/
  | reservedField
  /-- Fewer than the 16 bytes of a command word (R70, R78). Log entry 20. -/
  | incompleteWord
  deriving DecidableEq, Repr

/-- What decoding answers: an instruction, or a rejection by name. -/
inductive Decoded where
  | instr (i : Instr)
  | rejected (r : Reject)
  deriving DecidableEq, Repr

/-- The field `v[lo + width - 1 : lo]` (R12). -/
def bits (v : CmdWord) (lo width : Nat) : BitVec width := v.extractLsb' lo width

/-- The opcode of a command word (R70). -/
def opcodeOf (w : CmdWord) : BitVec 4 := bits w 0 4

/-- The TX_SEND format (R73). -/
def decodeTxSend (w : CmdWord) : Decoded :=
  if bits w 14 2 = 0 then
    .instr (.txSend (bits w 4 8) (w.getLsbD 12) (w.getLsbD 13) (bits w 16 16) (bits w 32 24) (bits w 56 8)
      (bits w 64 64))
  else .rejected .reservedField

/-- The DRV_RESP format (R74). -/
def decodeDrvResp (w : CmdWord) : Decoded :=
  if bits w 5 123 = 0 then .instr (.drvResp (w.getLsbD 4)) else .rejected .reservedField

/-- The RX_EDGE format (R76). -/
def decodeRxEdge (w : CmdWord) : Decoded :=
  if bits w 4 28 = 0 ∧ bits w 64 64 = 0 then .instr (.rxEdge (bits w 32 32)) else .rejected .reservedField

/-- The RESET format (R77). -/
def decodeReset (w : CmdWord) : Decoded :=
  if bits w 4 124 = 0 then .instr .reset else .rejected .reservedField

/-- R72 and R90: the opcode is looked at first, the command's reserved bits after it. -/
def decode (w : CmdWord) : Decoded :=
  if opcodeOf w = 0x1 then decodeTxSend w
  else if opcodeOf w = 0x2 then decodeDrvResp w
  else if opcodeOf w = 0x3 then decodeRxEdge w
  else if opcodeOf w = 0xF then decodeReset w
  else .rejected .reservedOpcode

/-- A command word from its bytes, byte k carrying bits [8k+7:8k] (R78). -/
def wordOfBytes (bs : List Byte) : CmdWord :=
  BitVec.ofNat 128 (bs.foldr (fun b acc => b.toNat + 256 * acc) 0)

/-- The 16 bytes of a command word, byte 0 first (R78). -/
def bytesOfWord (w : CmdWord) : List Byte := (List.range 16).map fun k => w.extractLsb' (8 * k) 8

/-- The command at the front of a byte stream, and the bytes after it. -/
def decodeBytes (bs : List Byte) : Decoded × List Byte :=
  if bs.length < 16 then (.rejected .incompleteWord, bs)
  else (decode (wordOfBytes (bs.take 16)), bs.drop 16)

/-- A TX_SEND word from its fields, each at the bit position of R73. -/
def encodeTxSend (proto : ProtoIdx) (plv blv : Bool) (repeatCount : RepeatCount) (pl : PulseLen) (bl : BitLen)
    (code : Code) : CmdWord :=
  BitVec.ofNat 128 (0x1 + proto.toNat * 2 ^ 4 + plv.toNat * 2 ^ 12 + blv.toNat * 2 ^ 13 + repeatCount.toNat * 2 ^ 16 +
    pl.toNat * 2 ^ 32 + bl.toNat * 2 ^ 56 + code.toNat * 2 ^ 64)

/-- A DRV_RESP word: OK at bit 4 (R74). -/
def encodeDrvResp (ok : Bool) : CmdWord := BitVec.ofNat 128 (0x2 + ok.toNat * 2 ^ 4)

/-- An RX_EDGE word: TS at bit 32 (R76). -/
def encodeRxEdge (ts : Stamp) : CmdWord := BitVec.ofNat 128 (0x3 + ts.toNat * 2 ^ 32)

/-- The command word of an instruction. SEND is spelled as the TX_SEND word with PLV = BLV = 0 (R140) and its ignored
fields 0 (log entry 18); a piece of line code has no command word. -/
def encode : Instr → Option CmdWord
  | .txSend proto plv blv rep pl bl code => some (encodeTxSend proto plv blv rep pl bl code)
  | .drvResp ok => some (encodeDrvResp ok)
  | .rxEdge ts => some (encodeRxEdge ts)
  | .reset => some (0xF : BitVec 128)
  | .send code proto rep => some (encodeTxSend proto false false rep 0 0 code)
  | .lineSyncOpen | .lineSym1 | .lineSym0 | .lineCloseMark | .symbitsData0 | .symbitsData1 | .symbitsFraming => none

/-- The bits the opcode table's "encoding" column gives a line-code row, read left to right: the levels of a pulse
pair (H = 1, L = 0; R79, R82, R83), or symbol bits (R80, R81). -/
def lineBits : Instr → Option (List Bool)
  | .lineSyncOpen => some [true, false]
  | .lineSym1 => some [true, false]
  | .lineSym0 => some [true, false]
  | .lineCloseMark => some [true, true]
  | .symbitsData0 => some [false, true]
  | .symbitsData1 => some [true, false]
  | .symbitsFraming => some [true]
  | .txSend .. | .drvResp _ | .rxEdge _ | .reset | .send _ _ _ => none

/-- The command word whose low `nbits` bits are `w` and whose other bits are 0. -/
def tableWord (nbits w : Nat) : CmdWord := BitVec.ofNat 128 (w % 2 ^ nbits)

/-- What the decoder reads from the bytes of `tableWord nbits w`, the first byte first. -/
def decodeTableWord (nbits w : Nat) : Option Instr :=
  match (decodeBytes (bytesOfWord (tableWord nbits w))).1 with
  | .instr i => some i
  | .rejected _ => none

end Sys2Proof
end

