-- ==== Sys2Proof/Machine/State.lean ====
section
/-! DEFINITION. The state of the block as plain data: every field of 10_state.md rules R24 to R33, the Protocol Table
it was configured with (R23), and the command words presented to it (R8); the state after power-on (R31, R271). -/

namespace Sys2Proof.Machine

/-- `tx_state` (R24). -/
inductive TxState where
  | idle
  | sending
  deriving DecidableEq, Repr

/-- `tx_result` (R25, R85). -/
inductive TxResult where
  | none
  | busy
  | success
  | invalidProtocol
  | transmitIoFailure
  deriving DecidableEq, Repr

/-- The inputs of the frame being sent and the position in it (R24). They have meaning only while SENDING. -/
structure TxRegs where
  /-- `tx_proto`: the protocol index of the send. -/
  proto : ProtoIdx
  /-- `tx_code`: the code being sent. -/
  code : Code
  /-- `tx_W`: the emitted data width. -/
  w : BitLen
  /-- `tx_PL`: the pulse length in effect. -/
  pl : PulseLen
  /-- `tx_R`: the repeat count of the send. -/
  r : RepeatCount
  /-- `tx_rep`: the index of the current repetition. -/
  rep : RepeatCount
  /-- `tx_op`: the index of the current op within the frame. -/
  op : BitVec 11
  deriving DecidableEq, Repr

/-- A DecodedCode event record (R86). -/
structure DecodedCode where
  protocol : ProtoIdx
  code : Code
  bitLength : BitLen
  pulseLengthUs : Dur
  rawCount : FillLevel
  rawTimings : List Dur
  deriving DecidableEq, Repr

/-- The fault and refusal marks (R33). `txOverlap` is the set of fault marks: TX_OVERLAP is the only fault there is
(R250). The other two are the refusal mark with the name of the refusal that set it (R75; log entry 5). -/
structure Marks where
  txOverlap : Bool
  reservedOpcode : Bool
  reservedField : Bool
  deriving DecidableEq, Repr

/-- The state of the block. -/
structure State where
  /-- `PT[1..N_PROTO]`, the configuration, fixed for the run (R23, R105). -/
  pt : ProtoTable
  /-- The command words presented and not yet taken, the next one first (R8, R70). -/
  input : List CmdWord
  /-- `tx_state` (R24). -/
  txState : TxState
  /-- `tx_proto`, `tx_code`, `tx_W`, `tx_PL`, `tx_R`, `tx_rep`, `tx_op` (R24). -/
  tx : TxRegs
  /-- `tx_result` (R25). -/
  txResult : TxResult
  /-- `tx_line` (R26). -/
  txLine : Level
  /-- The outstanding drive request, if there is one (R31, R135). -/
  outstanding : Option DriveOp
  /-- `RXB[0..MAX_CHANGES]` (R27, R52). -/
  rxb : Vector Dur rxCapacity
  /-- `rx_count` (R27). -/
  rxCount : FillLevel
  /-- `rx_last_ts` (R27). -/
  rxLastTs : Stamp
  /-- The drive log, oldest first (R32). -/
  driveLog : List DriveOp
  /-- The event log, oldest first (R32). -/
  eventLog : List DecodedCode
  /-- The fault marks and the refusal mark (R33). -/
  marks : Marks
  /-- How many free values have been drawn: the model's own field. Log entry 9. -/
  freeIdx : Nat
  deriving DecidableEq, Repr

/-- Why the machine stops. Every one is safe: the model stops where the spec has no step, or where no run comes. -/
inductive Fault where
  /-- DRV_RESP while no drive request is outstanding: the spec's "no move" (R139; 93 I5). Raised by DRV_RESP. Safe. -/
  | drvRespWhileIdle
  /-- `PT[tx_proto]` does not exist. Raised by DRV_RESP and the line-code rows while SENDING, only in states no run
  reaches (R53). Safe; log entry 12. -/
  | profileAbsent
  /-- `tx_op` is not an index of the frame. Raised as `profileAbsent` is, only in states no run reaches (R24). Safe; log entry 12. -/
  | opOutsideFrame
  /-- A line-code row is run where it is not the next stretch of a frame being sent. Raised by the `line…` and
  `symbits…` rows. Safe; log entry 17. -/
  | linePartNotDue
  deriving DecidableEq, Repr

/-- Why the machine gives no meaning. Reserved command words are not here: R75 has them mark the state and go on. -/
inductive Refusal where
  /-- An instruction whose arm has no meaning yet; no arm answers it in this package. Safe. -/
  | notModelled (mnemonic : String)
  /-- BAD_CONFIG: the configuration breaks R103 or R10's range of N_PROTO. Raised once, at power-on. Safe; log entry 3. -/
  | badConfig
  deriving DecidableEq, Repr

/-- What a step answers. -/
abbrev Answer := Host.Outcome State Fault Refusal

/-- The transmit fields after power-on: the spec leaves them unspecified (R31). DESIGN CHOICE zero, unsafe; log entry 10. -/
def TxRegs.atPowerOn : TxRegs := ⟨0, 0, 0, 0, 0, 0, 0⟩

/-- R31 and R271: the state after power-on, for a configuration. -/
def State.init (pt : ProtoTable) : State where
  pt := pt
  input := []
  txState := .idle
  tx := TxRegs.atPowerOn
  txResult := .none
  txLine := .L
  outstanding := Option.none
  rxb := Vector.replicate rxCapacity 0
  rxCount := 0
  rxLastTs := 0
  driveLog := []
  eventLog := []
  marks := ⟨false, false, false⟩
  freeIdx := 0

/-- The machine right after power-on, configured with the uninterpreted table. -/
def State.reset : State := State.init Config.protoTable

end Sys2Proof.Machine
end

