-- ==== Sys2Proof/Machine/Table.lean ====
section
/-! DEFINITION. The Protocol Table's operations: LOOKUP (R100, R101) and the one check of the configuration (R103). -/

namespace Sys2Proof.Machine

/-- R101: the valid profile indices are 1 to N_PROTO. -/
abbrev validIdx (t : ProtoTable) (i : ProtoIdx) : Prop := 1 ≤ i.toNat ∧ i.toNat ≤ t.nProto

/-- LOOKUP(i) (R100): the profile at index i, `none` where the spec raises InvalidProtocol. -/
def lookup (t : ProtoTable) (i : ProtoIdx) : Option Profile :=
  if i.toNat = 0 ∨ i.toNat > t.nProto then none else t.profiles[i.toNat - 1]?

/-- R103's check of one profile. -/
def checkProfile (p : RawProfile) : Option Profile := if h : p.Legal then some ⟨p, h⟩ else none

/-- R103's check of every profile of a configuration, in order. -/
def checkProfiles : List RawProfile → Option (List Profile)
  | [] => some []
  | p :: ps =>
    match checkProfile p, checkProfiles ps with
    | some q, some qs => some (q :: qs)
    | _, _ => none

/-- The check of a configuration: every profile legal (R103), N_PROTO from 1 to 255 (R10). Log entry 3. -/
def checkConfig (ps : List RawProfile) : Option ProtoTable :=
  match checkProfiles ps with
  | none => none
  | some qs => if h : 1 ≤ qs.length ∧ qs.length ≤ 255 then some ⟨qs, h.1, h.2⟩ else none

end Sys2Proof.Machine
end

