-- ==== Sys2Proof/Machine/Ops.lean ====
section
/-! DEFINITION. The named operations on the state: the output ports, the status, the marks, the receive buffer, the
end of a send, the raising of an error, and the taking of a command word. -/

namespace Sys2Proof.Machine

/-- `emit_drive(op)` (R14): present a drive request on the output port and append it to the drive log. -/
def State.emitDrive (s : State) (op : DriveOp) : State :=
  { s with outstanding := some op, driveLog := s.driveLog ++ [op] }

/-- `emit_event(rec)` (R14): present a DecodedCode on the event port and append it to the event log. -/
def State.emitEvent (s : State) (e : DecodedCode) : State := { s with eventLog := s.eventLog ++ [e] }

/-- Write `tx_result` (R25). -/
def State.setResult (s : State) (r : TxResult) : State := { s with txResult := r }

/-- Write `tx_line` (R26). -/
def State.setLine (s : State) (l : Level) : State := { s with txLine := l }

/-- The errors a transmit command can raise (R240). -/
inductive TxError where
  | invalidProtocol
  | transmitIoFailure
  deriving DecidableEq, Repr

/-- The `tx_result` value of an error (R240). -/
def TxError.result : TxError → TxResult
  | .invalidProtocol => .invalidProtocol
  | .transmitIoFailure => .transmitIoFailure

/-- `raise E` (R14, R245): set the TX result to the error's code. There is no trap; the command that raises ends here. -/
def State.raise (s : State) (e : TxError) : State := s.setResult e.result

/-- The transmit fields with contents the spec leaves unspecified: seven free values (R24, R270). Log entry 9. -/
def freeTxRegs (k : Nat) : TxRegs where
  proto := Config.freeBits k _
  code := Config.freeBits (k + 1) _
  w := Config.freeBits (k + 2) _
  pl := Config.freeBits (k + 3) _
  r := Config.freeBits (k + 4) _
  rep := Config.freeBits (k + 5) _
  op := Config.freeBits (k + 6) _

/-- The send is over or is withdrawn: IDLE, no request outstanding, and the transmit fields unspecified (R24, R135,
R272). -/
def State.dropSend (s : State) : State :=
  { s with txState := .idle, tx := freeTxRegs s.freeIdx, outstanding := none, freeIdx := s.freeIdx + 7 }

/-- `tx_line` becomes any level (R26): a free value. Log entry 8. -/
def State.freeLine (s : State) : State :=
  { s with txLine := Config.freeLevel s.freeIdx, freeIdx := s.freeIdx + 1 }

/-- `fault TX_OVERLAP` (R131, R250): the fault is marked and nothing else changes. -/
def State.markOverlap (s : State) : State := { s with marks := { s.marks with txOverlap := true } }

/-- `refuse R` for a command word (R75): the refusal is marked and nothing else changes. -/
def State.markRefused (s : State) : Reject → State
  | .reservedOpcode => { s with marks := { s.marks with reservedOpcode := true } }
  | .reservedField => { s with marks := { s.marks with reservedField := true } }
  | .incompleteWord => s

/-- The buffer with every entry 0 (R200, R270). -/
def clearedRxb : Vector Dur rxCapacity := Vector.replicate rxCapacity 0

/-- `CLEAR()` (R200): every entry of the buffer 0 and the fill level 0. -/
def State.clearRx (s : State) : State := { s with rxb := clearedRxb, rxCount := 0 }

/-- The buffer started anew with one duration: `CLEAR(); RXB[0] <- d; rx_count <- 1` (R207, R208). -/
def State.startBuffer (s : State) (d : Dur) : State :=
  { s with rxb := clearedRxb.set 0 d, rxCount := 1 }

/-- A duration appended (R209). -/
def State.appendEdge (s : State) (d : Dur) : State :=
  { s with rxb := s.rxb.setIfInBounds s.rxCount.toNat d, rxCount := s.rxCount + 1 }

/-- Write `rx_last_ts` (R201). -/
def State.setLastTs (s : State) (ts : Stamp) : State := { s with rxLastTs := ts }

/-- RXB[0..n-1] with n = rx_count: what a decode attempt reads, and the raw timings of an event (R203, R206). Log
entry 13. -/
def State.buffer (s : State) : List Dur := s.rxb.toList.take s.rxCount.toNat

/-- The next command word and the state without it, `none` when no word is presented (R8). -/
def State.takeWord (s : State) : Option (CmdWord × State) :=
  match s.input with
  | [] => none
  | w :: ws => some (w, { s with input := ws })

/-- A word presented ahead of those waiting. -/
def State.present (s : State) (w : CmdWord) : State := { s with input := w :: s.input }

/-- Go on with `f` where `a` answers a next state; stop as `a` stops. -/
def andThen (a : Answer) (f : State → Answer) : Answer :=
  match a with
  | .next s => f s
  | .fault r => .fault r
  | .refused r => .refused r

end Sys2Proof.Machine
end

