-- ==== Sys2Proof/Machine/Filter.lean ====
section
/-! DEFINITION. The noise/threshold filter: RX_EDGE and its parts (R200 to R211), and the FrameAccumulator view (R30). -/

namespace Sys2Proof.Machine

/-- `NOISE_OK(raw)` (R204). -/
def noiseOk (raw : Nat) : Bool := !occursIn noiseRun (render raw) && decide ((render raw).length > noiseMinLen)

/-- The outcome tag of an RX_EDGE step (R211): not state, for tests and for the view of R30. -/
inductive RxOutcome where
  | appended
  | overflow
  | boundaryNoMatch
  | noise (p : ProtoIdx)
  | emitted (p : ProtoIdx)
  deriving DecidableEq, Repr

/-- The entries of the buffer as numbers. -/
def State.entries (s : State) : List Nat := s.buffer.map BitVec.toNat

/-- The dispatch of a boundary (R203): protocols in ascending order from index `p`, the first Match stops it. -/
def firstMatch (entries : List Nat) : Nat → List Profile → Option (Nat × Match)
  | _, [] => none
  | p, prof :: rest =>
    match tryDecode entries prof with
    | some m => some (p, m)
    | none => firstMatch entries (p + 1) rest

/-- The first Match of the buffer as it stands, with its protocol index (R203). -/
def State.decodeBuffer (s : State) : Option (Nat × Match) := firstMatch s.entries 1 s.pt.profiles

/-- The event of a Match for protocol p (R206). -/
def eventOf (s : State) (p : Nat) (m : Match) : DecodedCode where
  protocol := BitVec.ofNat _ p
  code := BitVec.ofNat _ m.code
  bitLength := BitVec.ofNat _ m.bitLength
  pulseLengthUs := BitVec.ofNat _ m.pulseLengthUs
  rawCount := s.rxCount
  rawTimings := s.buffer

/-- The decode attempts of a boundary, the noise check and the event (R203 to R206), with the outcome tag. -/
def decodeAtBoundary (s : State) : State × RxOutcome :=
  match s.decodeBuffer with
  | none => (s, .boundaryNoMatch)
  | some (p, m) =>
    if noiseOk m.raw then (s.emitEvent (eventOf s p m), .emitted (BitVec.ofNat _ p))
    else (s, .noise (BitVec.ofNat _ p))

/-- RX_EDGE's effect once the duration d is known, the paths tested in R210's order: boundary, overflow, append. -/
def filterEdge (d : Dur) (s : State) : State × RxOutcome :=
  if d.toNat > quietGapUs then
    ((decodeAtBoundary s).1.startBuffer d, (decodeAtBoundary s).2)
  else if s.rxCount.toNat ≥ maxChanges then (s.startBuffer d, .overflow)
  else (s.appendEdge d, .appended)

/-- The duration of an edge (R201): the difference of timestamps modulo 2^32. -/
def edgeDuration (s : State) (ts : Stamp) : Dur := ts - s.rxLastTs

/-- RX_EDGE (R200) with its outcome tag (R211). -/
def rxEdge (ts : Stamp) (s : State) : State × RxOutcome := filterEdge (edgeDuration s ts) (s.setLastTs ts)

/-- RX_EDGE (R200). -/
def execRxEdge (ts : Stamp) (s : State) : Answer := .next (rxEdge ts s).1

/-- The states of the FrameAccumulator (R30). -/
inductive Accumulator where
  | awaitingBoundary
  | accumulating
  | matched
  | overflow
  deriving DecidableEq, Repr

/-- The FrameAccumulator view of a state between steps (R30). -/
def State.accumulator (s : State) : Accumulator := if s.rxCount = 0 then .awaitingBoundary else .accumulating

/-- The FrameAccumulator view of a step's outcome, where it is an instant of its own (R30, R211). -/
def RxOutcome.accumulator : RxOutcome → Option Accumulator
  | .appended => none
  | .overflow => some .overflow
  | .boundaryNoMatch => none
  | .noise _ => some .matched
  | .emitted _ => some .matched

end Sys2Proof.Machine
end

