-- ==== Sys2Proof/Machine/Frame.lean ====
section
/-! DEFINITION. The line code and the frame (R79 to R84, R125 to R129). -/

namespace Sys2Proof.Machine

/-- A level's bit: H = 1, L = 0 (R79). -/
def levelBit : Level → Bool
  | .H => true
  | .L => false

/-- The drive-request record of the output port: level above duration, 33 bits (R84). -/
def driveRecord (op : DriveOp) : BitVec 33 := BitVec.ofBool (levelBit op.level) ++ op.dur

/-- `c * PL` microseconds (R102, R134). -/
def unitDur (c : UnitCount) (pl : PulseLen) : Dur := BitVec.ofNat _ (c.toNat * pl.toNat)

/-- The biphase expansion of a data bit: 0 gives "01", 1 gives "10" (R80). -/
def expand : Bool → List Bool
  | false => [false, true]
  | true => [true, false]

/-- The data bits of a code, W of them, most significant first, zeros above bit 63 (R124). -/
def dataBits (code : Code) (w : Nat) : List Bool := msbBits code.toNat w

/-- The symbol sequence S (R81, R125): the framing bit 1, then the expanded data bits. -/
def symbols (code : Code) (w : Nat) : List Bool := true :: (dataBits code w).flatMap expand

/-- The opening sync (R83, R127). -/
def syncOpenOps (prof : Profile) (pl : PulseLen) : List DriveOp :=
  [⟨.H, unitDur prof.syncHigh pl⟩, ⟨.L, unitDur prof.syncLow pl⟩]

/-- The closing marker: high, then high again, for sync_high each (R83, R127). -/
def closeMarkOps (prof : Profile) (pl : PulseLen) : List DriveOp :=
  [⟨.H, unitDur prof.syncHigh pl⟩, ⟨.H, unitDur prof.syncHigh pl⟩]

/-- `SYMOPS(s, prof, PL)` (R82, R126). -/
def symOps (prof : Profile) (pl : PulseLen) : Bool → List DriveOp
  | true => [⟨.H, unitDur prof.oneHigh pl⟩, ⟨.L, unitDur prof.oneLow pl⟩]
  | false => [⟨.H, unitDur prof.zeroHigh pl⟩, ⟨.L, unitDur prof.zeroLow pl⟩]

/-- `FRAME(code, W, prof, PL)` (R127): the ops of one repetition. -/
def frame (code : Code) (w : Nat) (prof : Profile) (pl : PulseLen) : List DriveOp :=
  syncOpenOps prof pl ++ (symbols code w).flatMap (symOps prof pl) ++ closeMarkOps prof pl

/-- The ops of a send of `r` frames, back to back (R129). -/
def sendOps (r : Nat) (f : List DriveOp) : List DriveOp := (List.replicate r f).flatten

end Sys2Proof.Machine
end

