-- ==== Sys2Proof/Machine/Transmit.lean ====
section
/-! DEFINITION. The transmit framer with repeat control: TX_SEND (R130), SEND (R140) and DRV_RESP (R136). -/

namespace Sys2Proof.Machine

/-- The registers of an accepted send (R130). -/
def sendRegs (prof : Profile) (proto : ProtoIdx) (plv blv : Bool) (repeatCount : RepeatCount) (pl : PulseLen)
    (bl : BitLen) (code : Code) : TxRegs where
  proto := proto
  code := code
  w := BitVec.ofNat _ (dataWidth code blv bl)
  pl := pulseInEffect prof plv pl
  r := repeatCount
  rep := 0
  op := 0

/-- SENDING and BUSY, with the send's registers (R130). -/
def State.beginSend (s : State) (regs : TxRegs) : State :=
  { s with txState := .sending, txResult := .busy, tx := regs }

/-- The frame of the send in progress, where its profile exists: `FRAME(tx_code, tx_W, PT[tx_proto], tx_PL)` (R136). -/
def State.currentFrame (s : State) : Option (List DriveOp) :=
  (lookup s.pt s.tx.proto).map fun prof => frame s.tx.code s.tx.w.toNat prof s.tx.pl

/-- TX_SEND's effect (R130), the checks in R248's order. -/
def transmit (proto : ProtoIdx) (plv blv : Bool) (repeatCount : RepeatCount) (pl : PulseLen) (bl : BitLen)
    (code : Code) (s : State) : Answer :=
  if s.txState = .sending then .next s.markOverlap
  else
    match lookup s.pt proto with
    | none => .next (s.raise .invalidProtocol)
    | some prof =>
      if repeatCount = 0 then .next (s.setResult .success)
      else
        .next ((s.beginSend (sendRegs prof proto plv blv repeatCount pl bl code)).emitDrive
          ⟨.H, unitDur prof.syncHigh (pulseInEffect prof plv pl)⟩)

/-- TX_SEND (R130). -/
def execTxSend (proto : ProtoIdx) (plv blv : Bool) (repeatCount : RepeatCount) (pl : PulseLen) (bl : BitLen)
    (code : Code) (s : State) : Answer :=
  transmit proto plv blv repeatCount pl bl code s

/-- SEND code, proto, rep (R140): TX_SEND with PLV = 0 and BLV = 0. -/
def execSend (code : Code) (proto : ProtoIdx) (repeatCount : RepeatCount) (s : State) : Answer :=
  transmit proto false false repeatCount 0 0 code s

/-- The position after the op at hand: the next op of the frame, or op 0 of the next repetition (R136). -/
def nextPosition (frameLen : Nat) (t : TxRegs) : TxRegs :=
  if (t.op + 1).toNat = frameLen then { t with op := 0, rep := t.rep + 1 } else { t with op := t.op + 1 }

/-- The send ends with a result (R136). -/
def State.endSend (s : State) (r : TxResult) : State := (s.setResult r).dropSend

/-- The position moves on (R136): the send ends with SUCCESS after the last repetition; otherwise the op at the new
position is presented. -/
def advance (f : List DriveOp) (s : State) : Answer :=
  let regs := nextPosition f.length s.tx
  if regs.rep = regs.r then .next (s.endSend .success)
  else
    match f[regs.op.toNat]? with
    | none => .fault .opOutsideFrame
    | some op => .next ({ s with tx := regs }.emitDrive op)

/-- The driver has asserted the outstanding level: DRV_RESP with OK = 1 while SENDING (R136). -/
def answerOk (s : State) : Answer :=
  match s.currentFrame with
  | none => .fault .profileAbsent
  | some f =>
    match f[s.tx.op.toNat]? with
    | none => .fault .opOutsideFrame
    | some op => advance f (s.setLine op.level)

/-- The drive failed: DRV_RESP with OK = 0 while SENDING (R137, R242). The level of the line is unspecified (R26). -/
def answerFail (s : State) : State := (s.raise .transmitIoFailure).dropSend.freeLine

/-- DRV_RESP (R136); while IDLE there is no step (R139). -/
def execDrvResp (ok : Bool) (s : State) : Answer :=
  if s.txState = .idle then .fault .drvRespWhileIdle
  else if ok then answerOk s
  else .next (answerFail s)

end Sys2Proof.Machine
end

