-- ==== Sys2Proof/Machine/LineCode.lean ====
section
/-! DEFINITION. The line-code rows of the opcode table. Each is a stretch of FRAME (R125 to R127). No command word spells one; run as an
instruction, a row is the driving of its stretch by the TX sequencer: every op of the stretch asserted in turn, from the position where that
stretch is the frame's next one. Log entries 15, 16 and 17. -/

namespace Sys2Proof.Machine

/-- The pulse pairs a frame is made of (R82, R83). -/
inductive LinePair where
  | syncOpen
  | sym (b : Bool)
  | closeMark
  deriving DecidableEq, Repr

/-- The pairs of a frame in order (R127). -/
def framePairs (code : Code) (w : Nat) : List LinePair :=
  .syncOpen :: (symbols code w).map .sym ++ [.closeMark]

/-- The two ops of a pair (R126, R127). -/
def pairOps (prof : Profile) (pl : PulseLen) : LinePair → List DriveOp
  | .syncOpen => syncOpenOps prof pl
  | .sym b => symOps prof pl b
  | .closeMark => closeMarkOps prof pl

/-- The pair that begins at the position of the send in progress, if one begins there: pair k is ops 2k and 2k+1. -/
def pairDue (t : TxRegs) : Option LinePair :=
  if t.op.toNat % 2 = 0 then (framePairs t.code t.w.toNat)[t.op.toNat / 2]? else none

/-- What the symbol bits of a frame stand for (R81). -/
inductive SymbolGroup where
  | framing
  | data (b : Bool)
  deriving DecidableEq, Repr

/-- The symbol bits of a group (R80, R81). -/
def groupBits : SymbolGroup → List Bool
  | .framing => [true]
  | .data b => expand b

/-- The group of symbol bits that begins at the position of the send in progress, if one begins there: the framing bit
is ops 2 and 3, and the j-th data bit sent is ops 4 + 4j to 7 + 4j (R127). -/
def groupDue (t : TxRegs) : Option SymbolGroup :=
  if t.op.toNat = 2 then some .framing
  else if 4 ≤ t.op.toNat ∧ t.op.toNat % 4 = 0 then
    ((dataBits t.code t.w.toNat)[(t.op.toNat - 4) / 4]?).map .data
  else none

/-- `n` drive requests answered OK in turn. -/
def answersOk : Nat → State → Answer
  | 0, s => .next s
  | n + 1, s => andThen (answerOk s) (answersOk n)

/-- A pair is driven where it is due. -/
def drivePair (p : LinePair) (s : State) : Answer :=
  if s.txState = .sending ∧ pairDue s.tx = some p then answersOk 2 s else .fault .linePartNotDue

/-- A group of symbol bits is driven where it is due: two ops a symbol bit (R126). -/
def driveGroup (g : SymbolGroup) (s : State) : Answer :=
  if s.txState = .sending ∧ groupDue s.tx = some g then answersOk (2 * (groupBits g).length) s
  else .fault .linePartNotDue

/-- LINE_SYNC_OPEN (R83, R127). -/
def execLineSyncOpen (s : State) : Answer := drivePair .syncOpen s

/-- LINE_SYM1 (R82, R126). -/
def execLineSym1 (s : State) : Answer := drivePair (.sym true) s

/-- LINE_SYM0 (R82, R126). -/
def execLineSym0 (s : State) : Answer := drivePair (.sym false) s

/-- LINE_CLOSE_MARK (R83, R127). -/
def execLineCloseMark (s : State) : Answer := drivePair .closeMark s

/-- SYMBITS_DATA0 (R80, R125). -/
def execSymbitsData0 (s : State) : Answer := driveGroup (.data false) s

/-- SYMBITS_DATA1 (R80, R125). -/
def execSymbitsData1 (s : State) : Answer := driveGroup (.data true) s

/-- SYMBITS_FRAMING (R81, R125). -/
def execSymbitsFraming (s : State) : Answer := driveGroup .framing s

end Sys2Proof.Machine
end

