-- ==== Sys2Proof/Machine/Reset.lean ====
section
/-! DEFINITION. RESET (R270, R272, R273) and power-on with its check of the configuration (R103, R271, R275). -/

namespace Sys2Proof.Machine

/-- The reset of every piece of state RESET writes (R270). The table, the logs and the marks stay (R273), and so do the
words not yet taken. -/
def State.hardReset (s : State) : State :=
  (((s.dropSend.setResult .none).setLine .L).clearRx).setLastTs 0

/-- RESET (R270). -/
def execReset (s : State) : Answer := .next s.hardReset

/-- Power-on with a configuration (R271, R275): the reset state with empty logs and no marks, or no run at all when
the configuration is bad (R103). Log entry 3. -/
def powerOn (config : List RawProfile) : Answer :=
  match checkConfig config with
  | none => .refused .badConfig
  | some t => .next (State.init t)

end Sys2Proof.Machine
end

