-- ==== Sys2Proof/Machine/Dispatch.lean ====
section
/-! DEFINITION. One arm per instruction, each one direct call of its meaning. -/

namespace Sys2Proof.Machine

/-- The meaning of an instruction. -/
def exec (i : Instr) (s : State) : Host.Outcome State Fault Refusal :=
  match i with
  | .txSend proto plv blv rep pl bl code => Sys2Proof.Machine.execTxSend proto plv blv rep pl bl code s
  | .drvResp ok => Sys2Proof.Machine.execDrvResp ok s
  | .rxEdge ts => Sys2Proof.Machine.execRxEdge ts s
  | .reset => Sys2Proof.Machine.execReset s
  | .send code proto rep => Sys2Proof.Machine.execSend code proto rep s
  | .lineSyncOpen => Sys2Proof.Machine.execLineSyncOpen s
  | .lineSym1 => Sys2Proof.Machine.execLineSym1 s
  | .lineSym0 => Sys2Proof.Machine.execLineSym0 s
  | .lineCloseMark => Sys2Proof.Machine.execLineCloseMark s
  | .symbitsData0 => Sys2Proof.Machine.execSymbitsData0 s
  | .symbitsData1 => Sys2Proof.Machine.execSymbitsData1 s
  | .symbitsFraming => Sys2Proof.Machine.execSymbitsFraming s

end Sys2Proof.Machine
end

