-- ==== Sys2Proof/Machine/Step.lean ====
section
/-! DEFINITION. One step: the next command word presented to the block is taken, decoded and run as one atomic step (R8, R57, R70). -/

namespace Sys2Proof.Machine

/-- One step. With no word presented the block does nothing and keeps its state (R258). A word that spells no command
marks its refusal and changes nothing else (R75). Log entries 4 and 5. -/
def step (s : State) : Host.Outcome State Fault Refusal :=
  match s.takeWord with
  | none => .next s
  | some (w, rest) =>
    match decode w with
    | .instr i => exec i rest
    | .rejected r => .next (rest.markRefused r)

/-- `s` with the word whose low `nbits` bits are `w`, and whose other bits are 0, presented next. -/
def State.withFetchWord (s : State) (nbits w : Nat) : State := s.present (tableWord nbits w)

end Sys2Proof.Machine
end

