-- ==== Sys2Proof/Machine/Flags.lean ====
section
/-! DEFINITION. The block has no condition flags (R22). What the host reads instead: `tx_busy`, derived, and the 3-bit
code of `tx_result` (R25, R85); and the views of the marks a claim may name (R33). -/

namespace Sys2Proof.Machine

/-- `tx_busy` (R22): derived, not stored. -/
def State.txBusy (s : State) : Bool := s.txState == .sending

/-- The encoding of `tx_result` (R85). -/
def TxResult.code : TxResult → BitVec 3
  | .none => 0
  | .busy => 1
  | .success => 2
  | .invalidProtocol => 3
  | .transmitIoFailure => 4

/-- The refusal mark (R33). -/
def Marks.refusal (m : Marks) : Bool := m.reservedOpcode || m.reservedField

/-- R33: a state with a fault or a refusal is never a successful final state. -/
def State.unmarked (s : State) : Bool := !s.marks.txOverlap && !s.marks.refusal

end Sys2Proof.Machine
end

