-- ==== Sys2Proof/Machine/Timing.lean ====
section
/-! DEFINITION. The times of the drive operations of a send (R282 to R284), as functions of the time the first op is asserted and the ops.
The machine's state holds no time (R8); these bind the driver and the pacing of a timed refinement. Log entry 21. -/

namespace Sys2Proof.Machine

/-- The sum of the durations of some ops, in microseconds. -/
def totalDur (ops : List DriveOp) : Nat := (ops.map fun op => op.dur.toNat).sum

/-- `deadline_k = T0 + dur_0 + … + dur_k` (R282), k counting across the frames of the send. -/
def deadline (t0 : Nat) (ops : List DriveOp) (k : Nat) : Nat := t0 + totalDur (ops.take (k + 1))

/-- The time the level of op k is asserted (R282): T0 for the first, the deadline of the op before for the others. -/
def assertTime (t0 : Nat) (ops : List DriveOp) : Nat → Nat
  | 0 => t0
  | k + 1 => deadline t0 ops k

/-- When op k+1 is presented, the answer to op k having come at time `answered` (R283): at op k's deadline, or at once
when the answer is later than that. -/
def presentTime (t0 : Nat) (ops : List DriveOp) (k : Nat) (answered : Nat) : Nat := max (deadline t0 ops k) answered

end Sys2Proof.Machine
end

