-- ==== Sys2Proof/Safety.lean ====
section
/-! DEFINITION. The terms claims use: the invariants of the two engines (R29, R85, R135, R213, R214), the first Match of
a buffer (R203), and runs of answered drive requests (R129). -/

namespace Sys2Proof.Machine

/-- The invariant of the TX sequencer: BUSY exactly while SENDING (R85); no request outstanding while IDLE; while SENDING
the profile exists, the code fits the width, the position is inside the send, and the one outstanding request is the op
at the position (R24, R124, R135) and the last entry of the drive log (R242). -/
def State.TxInv (s : State) : Prop :=
  (s.txState = .sending ↔ s.txResult = .busy) ∧
  (s.txState = .idle → s.outstanding = none) ∧
  (s.txState = .sending → ∃ prof, lookup s.pt s.tx.proto = some prof ∧
    bitlen1 s.tx.code.toNat ≤ s.tx.w.toNat ∧
    s.tx.op.toNat < 4 * s.tx.w.toNat + 6 ∧ s.tx.rep.toNat < s.tx.r.toNat ∧
    s.outstanding = (frame s.tx.code s.tx.w.toNat prof s.tx.pl)[s.tx.op.toNat]? ∧
    s.driveLog.getLast? = s.outstanding)

/-- The invariant of the RX engine: R29 (a), (b) and, with them, (c); and R213's bound on the entries after the first. -/
def State.RxInv (s : State) : Prop :=
  s.rxCount.toNat ≤ 256 ∧
  (∀ k : Fin rxCapacity, s.rxCount.toNat ≤ k.val → s.rxb[k] = 0) ∧
  (∀ k : Fin rxCapacity, 1 ≤ k.val → s.rxb[k].toNat ≤ 2000)

/-- An event record with R214's and R86's bounds, for a table. -/
def DecodedCode.Bounded (t : ProtoTable) (e : DecodedCode) : Prop :=
  validIdx t e.protocol ∧ 17 ≤ e.bitLength.toNat ∧ e.bitLength.toNat ≤ 62 ∧ e.code.toNat < 2 ^ e.bitLength.toNat ∧
    49 ≤ e.rawCount.toNat ∧ e.rawCount.toNat ≤ 256 ∧ e.rawTimings.length = e.rawCount.toNat

/-- Every event of the log is bounded (R214). -/
def State.EventsBounded (s : State) : Prop := ∀ e ∈ s.eventLog, e.Bounded s.pt

/-- The invariant of the block. -/
def State.Inv (s : State) : Prop := s.TxInv ∧ s.RxInv ∧ s.EventsBounded

/-- Protocol `p` is the first of the table whose decode of the buffer is a Match (R203). -/
def State.FirstMatch (s : State) (p : ProtoIdx) (m : Match) : Prop :=
  (∃ prof, lookup s.pt p = some prof ∧ tryDecode s.entries prof = some m) ∧
  ∀ q prof, q.toNat < p.toNat → lookup s.pt q = some prof → tryDecode s.entries prof = none

/-- No protocol of the table matches the buffer (R203, R243). -/
def State.NoMatch (s : State) : Prop :=
  ∀ q prof, lookup s.pt q = some prof → tryDecode s.entries prof = none

/-- `n` DRV_RESP(ok) in turn. -/
def drivesOk : Nat → State → Answer
  | 0, s => .next s
  | n + 1, s => andThen (exec (.drvResp true) s) (drivesOk n)

end Sys2Proof.Machine
end

