-- ==== Sys2Proof/Certificates/Slice0/Obligations.lean ====
section
/-! DEFINITION. The statements for the provers: what the rules of spec/ say each command and each part of the block does. -/

open Sys2Proof Sys2Proof.Machine

/-! ## Encoding -/

/-- Words written out from R73 to R77 (95_test_vectors.md V-ENC-1, 4, 6, 8, 9, 11, 12, 14) decode to what they stand for. -/
def Obligations.KnownWordsDecode : Prop :=
  decode 0x00000000000000010100000000022011 = .instr (.txSend 1 false true 2 0 1 1) ∧
  decode 0x00000000000000A50000015E00031011 = .instr (.txSend 1 true false 3 350 0 0xA5) ∧
  decode 0x00000000000000000000000000000012 = .instr (.drvResp true) ∧
  decode 0x0000000000000000000003E800000003 = .instr (.rxEdge 1000) ∧
  decode 0x0000000000000000000000000000000F = .instr .reset ∧
  decode 0x00000000000000000000000000000007 = .rejected .reservedOpcode ∧
  decode 0x00000000000000000000000000004011 = .rejected .reservedField ∧
  decode 0x0000000000000001000003E800000003 = .rejected .reservedField

/-- Every command word's instruction is encoded by a word that decodes to it, with every operand at every value (R70 to R77). -/
def Obligations.EncodedCommandsDecodeBack : Prop :=
  ∀ i : Instr, i.wellFormed = true → ∃ w, encode i = some w ∧ decode w = .instr i

/-- Every word that decodes is the encoding of what it decodes to: no bit of a command word is dropped (R71, R73 to R77). -/
def Obligations.DecodedWordsEncodeBack : Prop :=
  ∀ (w : CmdWord) (i : Instr), decode w = .instr i → i.wellFormed = true ∧ encode i = some w

/-- R90 with R72 to R77: the opcode is judged first, whatever the other bits are; then the reserved bits of the command. -/
def Obligations.DecodeRejectsExactlyReserved : Prop :=
  ∀ w : CmdWord,
    (decode w = .rejected .reservedOpcode ↔
      opcodeOf w ≠ 0x1 ∧ opcodeOf w ≠ 0x2 ∧ opcodeOf w ≠ 0x3 ∧ opcodeOf w ≠ 0xF) ∧
    (decode w = .rejected .reservedField ↔
      (opcodeOf w = 0x1 ∧ bits w 14 2 ≠ 0) ∨ (opcodeOf w = 0x2 ∧ bits w 5 123 ≠ 0) ∨
      (opcodeOf w = 0x3 ∧ (bits w 4 28 ≠ 0 ∨ bits w 64 64 ≠ 0)) ∨ (opcodeOf w = 0xF ∧ bits w 4 124 ≠ 0)) ∧
    decode w ≠ .rejected .incompleteWord

/-- The match and mask of R73, R74, R76 and R77 (the rows of opcode_table.json) tell exactly the words of each command. -/
def Obligations.MatchAndMaskAgree : Prop :=
  ∀ w : CmdWord,
    ((∃ p a b r l n c, decode w = .instr (.txSend p a b r l n c)) ↔ w &&& 0x0000000000000000000000000000C00F = 0x1) ∧
    ((∃ ok, decode w = .instr (.drvResp ok)) ↔ w &&& 0xFFFFFFFFFFFFFFFFFFFFFFFFFFFFFFEF = 0x2) ∧
    ((∃ ts, decode w = .instr (.rxEdge ts)) ↔ w &&& 0xFFFFFFFFFFFFFFFF00000000FFFFFFFF = 0x3) ∧
    (decode w = .instr .reset ↔ w = 0xF)

/-- R78: byte k carries bits [8k+7:8k], and 16 bytes are read back as the word, the rest of the bytes left. -/
def Obligations.BytesCarryTheWord : Prop :=
  ∀ (w : CmdWord) (rest : List Byte),
    (bytesOfWord w).length = 16 ∧
    (∀ k, k < 16 → (bytesOfWord w)[k]? = some (bits w (8 * k) 8)) ∧
    decodeBytes (bytesOfWord w ++ rest) = (decode w, rest)

/-! ## The step -/

/-- The word presented next is taken, and the instruction it decodes to is run (R8, R70); with no word presented the
block keeps its state (R258). -/
def Obligations.StepRunsDecodedWord : Prop :=
  ∀ s : State,
    (∀ w ws i, s.input = w :: ws → decode w = .instr i → step s = exec i { s with input := ws }) ∧
    (s.input = [] → step s = .next s)

/-- R75: a word that spells no command sets the refusal mark, under its name, and changes no other state. -/
def Obligations.ReservedWordOnlySetsRefusalMark : Prop :=
  ∀ (s : State) (w : CmdWord) (ws : List CmdWord), s.input = w :: ws →
    (decode w = .rejected .reservedOpcode →
      step s = .next { s with input := ws, marks := { s.marks with reservedOpcode := true } }) ∧
    (decode w = .rejected .reservedField →
      step s = .next { s with input := ws, marks := { s.marks with reservedField := true } }) ∧
    ∀ t, step s = .next t → (∀ i, decode w ≠ .instr i) → t.marks.refusal = true

/-- R105: no command and no piece of line code writes the table, and no step does. -/
def Obligations.TableIsImmutable : Prop :=
  (∀ (i : Instr) (s t : State), exec i s = .next t → t.pt = s.pt) ∧
  ∀ s t : State, step s = .next t → t.pt = s.pt

/-- R32, R33 and R252: the logs only grow at their ends, by at most one entry a step; and no mark is ever cleared, so a
marked state is never unmarked again. -/
def Obligations.ObservationsOnlyGrow : Prop :=
  ∀ s t : State, step s = .next t →
    (t.driveLog = s.driveLog ∨ ∃ op, t.driveLog = s.driveLog ++ [op]) ∧
    (t.eventLog = s.eventLog ∨ ∃ e, t.eventLog = s.eventLog ++ [e]) ∧
    (s.marks.txOverlap = true → t.marks.txOverlap = true) ∧
    (s.marks.refusal = true → t.marks.refusal = true) ∧
    (s.unmarked = false → t.unmarked = false)

/-! ## The table -/

/-- R101: an index is valid exactly when 1 ≤ i ≤ N_PROTO, and LOOKUP then returns PT[i]. -/
def Obligations.LookupValidIndices : Prop :=
  ∀ (t : ProtoTable) (i : ProtoIdx),
    ((lookup t i).isSome = true ↔ 1 ≤ i.toNat ∧ i.toNat ≤ t.nProto) ∧
    ∀ k, i.toNat = k + 1 → lookup t i = t.profiles[k]?

/-- R103: a configuration with a profile that breaks the invariant is refused and gets no run; a good one of 1 to 255
profiles runs with exactly its profiles. (The range of N_PROTO is R10's; that it is checked here is log entry 3.) -/
def Obligations.BadConfigGetsNoRun : Prop :=
  ∀ ps : List RawProfile,
    ((∃ p ∈ ps, ¬p.Legal) → powerOn ps = .refused .badConfig) ∧
    ((∀ p ∈ ps, p.Legal) → 1 ≤ ps.length → ps.length ≤ 255 →
      ∃ t : ProtoTable, t.profiles.map Profile.toRawProfile = ps ∧ powerOn ps = .next (State.init t))

/-! ## Transmit -/

/-- R130, accepted: BUSY, the send's registers, position (0, 0), and the frame's first op presented. PL is R122's, BL
is R123's, W is R124's; nothing else changes. -/
def Obligations.TxSendStartsSend : Prop :=
  ∀ (proto : ProtoIdx) (plv blv : Bool) (rep : BitVec 16) (pl : PulseLen) (bl : BitVec 8) (code : Code) (s : State)
    (prof : Profile), s.txState = .idle → lookup s.pt proto = some prof → rep ≠ 0 →
    ∃ (w : BitVec 8) (d : Dur),
      w.toNat = max (if blv then bl.toNat else if code.toNat > 16777216 then 32 else 24) (bitlen1 code.toNat) ∧
      d.toNat = prof.syncHigh.toNat * (if plv then pl else prof.pulseLength).toNat ∧
      exec (.txSend proto plv blv rep pl bl code) s = .next
        { s with
          txState := .sending, txResult := .busy,
          tx := ⟨proto, code, w, if plv then pl else prof.pulseLength, rep, 0, 0⟩,
          outstanding := some ⟨.H, d⟩, driveLog := s.driveLog ++ [⟨.H, d⟩] }

/-- R140: SEND starts a send with the profile's pulse length and the heuristic bit length. -/
def Obligations.SendStartsSend : Prop :=
  ∀ (code : Code) (proto : ProtoIdx) (rep : BitVec 16) (s : State) (prof : Profile),
    s.txState = .idle → lookup s.pt proto = some prof → rep ≠ 0 →
    ∃ (w : BitVec 8) (d : Dur),
      w.toNat = max (if code.toNat > 16777216 then 32 else 24) (bitlen1 code.toNat) ∧
      d.toNat = prof.syncHigh.toNat * prof.pulseLength.toNat ∧
      exec (.send code proto rep) s = .next
        { s with
          txState := .sending, txResult := .busy, tx := ⟨proto, code, w, prof.pulseLength, rep, 0, 0⟩,
          outstanding := some ⟨.H, d⟩, driveLog := s.driveLog ++ [⟨.H, d⟩] }

/-- R140 and R73: SEND is TX_SEND with PLV = 0 and BLV = 0, whatever the ignored PL and BL fields hold, and its word is
such a TX_SEND word. -/
def Obligations.SendIsTxSendWithoutOverrides : Prop :=
  (∀ (code : Code) (proto : ProtoIdx) (rep : BitVec 16) (pl : PulseLen) (bl : BitVec 8) (s : State),
    exec (.send code proto rep) s = exec (.txSend proto false false rep pl bl code) s) ∧
  (∀ (code : Code) (proto : ProtoIdx) (rep : BitVec 16),
    ∃ w, encode (.send code proto rep) = some w ∧ decode w = .instr (.txSend proto false false rep 0 0 code)) ∧
  encode (.send 5 1 1) = some 0x00000000000000050000000000010011

/-- R121: the index is checked first; an invalid one sets the result and presents no drive request. -/
def Obligations.InvalidProtocolPresentsNothing : Prop :=
  ∀ (proto : ProtoIdx) (plv blv : Bool) (rep : BitVec 16) (pl : PulseLen) (bl : BitVec 8) (code : Code) (s : State),
    s.txState = .idle → ¬(1 ≤ proto.toNat ∧ proto.toNat ≤ s.pt.nProto) →
    exec (.txSend proto plv blv rep pl bl code) s = .next { s with txResult := .invalidProtocol } ∧
    exec (.send code proto rep) s = .next { s with txResult := .invalidProtocol }

/-- R132: REPEAT = 0 with a valid index is a send of zero frames: SUCCESS, no drive request, still IDLE; with an
invalid index it is INVALID_PROTOCOL. -/
def Obligations.RepeatZeroSucceedsAtOnce : Prop :=
  ∀ (proto : ProtoIdx) (plv blv : Bool) (pl : PulseLen) (bl : BitVec 8) (code : Code) (s : State),
    s.txState = .idle →
    (1 ≤ proto.toNat ∧ proto.toNat ≤ s.pt.nProto →
      exec (.txSend proto plv blv 0 pl bl code) s = .next { s with txResult := .success } ∧
      exec (.send code proto 0) s = .next { s with txResult := .success }) ∧
    (¬(1 ≤ proto.toNat ∧ proto.toNat ≤ s.pt.nProto) →
      exec (.txSend proto plv blv 0 pl bl code) s = .next { s with txResult := .invalidProtocol })

/-- R131: TX_SEND during a send is marked TX_OVERLAP and leaves every other piece of state as it was, whatever its
operands. -/
def Obligations.OverlapOnlyMarksFault : Prop :=
  ∀ (proto : ProtoIdx) (plv blv : Bool) (rep : BitVec 16) (pl : PulseLen) (bl : BitVec 8) (code : Code) (s : State),
    s.txState = .sending →
    exec (.txSend proto plv blv rep pl bl code) s = .next { s with marks := { s.marks with txOverlap := true } } ∧
    exec (.send code proto rep) s = .next { s with marks := { s.marks with txOverlap := true } }

/-- R136, an op that is not its frame's last: the line takes the op's level, the position moves by one, the next op is
presented, and nothing else changes. -/
def Obligations.DrvRespOkPresentsNextOp : Prop :=
  ∀ (s : State) (prof : Profile) (cur nxt : DriveOp), s.txState = .sending → lookup s.pt s.tx.proto = some prof →
    (frame s.tx.code s.tx.w.toNat prof s.tx.pl)[s.tx.op.toNat]? = some cur →
    (frame s.tx.code s.tx.w.toNat prof s.tx.pl)[s.tx.op.toNat + 1]? = some nxt →
    s.tx.rep ≠ s.tx.r →
    exec (.drvResp true) s = .next
      { s with
        txLine := cur.level, tx := { s.tx with op := s.tx.op + 1 }, outstanding := some nxt,
        driveLog := s.driveLog ++ [nxt] }

/-- R136, the last op of a frame that is not the last: the next frame's first op is presented at once. -/
def Obligations.DrvRespOkStartsNextFrame : Prop :=
  ∀ (s : State) (prof : Profile), s.txState = .sending → lookup s.pt s.tx.proto = some prof →
    s.tx.op.toNat + 1 = 4 * s.tx.w.toNat + 6 → s.tx.rep + 1 ≠ s.tx.r →
    ∃ d : Dur, d.toNat = prof.syncHigh.toNat * s.tx.pl.toNat ∧
      exec (.drvResp true) s = .next
        { s with
          txLine := .H, tx := { s.tx with op := 0, rep := s.tx.rep + 1 }, outstanding := some ⟨.H, d⟩,
          driveLog := s.driveLog ++ [⟨.H, d⟩] }

/-- R136 and R138, the last op of the last frame: IDLE, SUCCESS, the line left high, nothing outstanding and nothing
more in the log. (The transmit fields are then unspecified, R24: free values, log entry 9.) -/
def Obligations.DrvRespOkEndsSend : Prop :=
  ∀ (s : State) (prof : Profile), s.txState = .sending → lookup s.pt s.tx.proto = some prof →
    s.tx.op.toNat + 1 = 4 * s.tx.w.toNat + 6 → s.tx.rep + 1 = s.tx.r →
    ∃ (regs : TxRegs) (k : Nat), exec (.drvResp true) s = .next
      { s with
        txState := .idle, txResult := .success, txLine := .H, tx := regs, outstanding := none, freeIdx := k }

/-- R242: a failed drive ends the send with TRANSMIT_IO_FAILURE and presents no further request. (The line's level and
the transmit fields are then unspecified, R26 and R24: free values, log entries 8 and 9.) -/
def Obligations.DrvRespFailEndsSend : Prop :=
  ∀ s : State, s.txState = .sending →
    ∃ (line : Level) (regs : TxRegs) (k : Nat), exec (.drvResp false) s = .next
      { s with
        txState := .idle, txResult := .transmitIoFailure, txLine := line, tx := regs, outstanding := none,
        freeIdx := k }

/-- R139: DRV_RESP while IDLE has no step. -/
def Obligations.DrvRespWhileIdleHasNoStep : Prop :=
  ∀ (ok : Bool) (s : State), s.txState = .idle → exec (.drvResp ok) s = .fault .drvRespWhileIdle

/-- R125 and R81: S has 1 + 2W bits: the framing 1, then for each data bit, most significant first, "10" or "01". -/
def Obligations.SymbolSequence : Prop :=
  ∀ (code : Code) (w : Nat),
    (symbols code w).length = 1 + 2 * w ∧ (symbols code w)[0]? = some true ∧
    ∀ j, j < w →
      (symbols code w)[1 + 2 * j]? = some (code.getLsbD (w - 1 - j)) ∧
      (symbols code w)[2 + 2 * j]? = some (!code.getLsbD (w - 1 - j))

/-- R126, R127 and R134, op by op and at the exact durations: the opening sync, the pair of each symbol in order, the
closing marker high then high again; and R128: the frame has 4W + 6 ops. -/
def Obligations.FrameOpByOp : Prop :=
  ∀ (code : Code) (w : Nat) (prof : Profile) (pl : PulseLen),
    (frame code w prof pl).length = 4 * w + 6 ∧
    (∀ c : UnitCount, (unitDur c pl).toNat = c.toNat * pl.toNat) ∧
    (frame code w prof pl)[0]? = some ⟨.H, unitDur prof.syncHigh pl⟩ ∧
    (frame code w prof pl)[1]? = some ⟨.L, unitDur prof.syncLow pl⟩ ∧
    (∀ k, (symbols code w)[k]? = some true →
      (frame code w prof pl)[2 + 2 * k]? = some ⟨.H, unitDur prof.oneHigh pl⟩ ∧
      (frame code w prof pl)[3 + 2 * k]? = some ⟨.L, unitDur prof.oneLow pl⟩) ∧
    (∀ k, (symbols code w)[k]? = some false →
      (frame code w prof pl)[2 + 2 * k]? = some ⟨.H, unitDur prof.zeroHigh pl⟩ ∧
      (frame code w prof pl)[3 + 2 * k]? = some ⟨.L, unitDur prof.zeroLow pl⟩) ∧
    (frame code w prof pl)[4 * w + 4]? = some ⟨.H, unitDur prof.syncHigh pl⟩ ∧
    (frame code w prof pl)[4 * w + 5]? = some ⟨.H, unitDur prof.syncHigh pl⟩

/-- R129: a send of R frames is R(4W + 6) ops, the i-th being FRAME[i mod (4W+6)], and the first op of frame k+1 is
asserted at the deadline of the last op of frame k (R282). R133: with a pulse length of 0 every op has duration 0, and
the op count is the same. -/
def Obligations.SendRepeatsFrameWithoutGap : Prop :=
  ∀ (r : Nat) (code : Code) (w : Nat) (prof : Profile) (pl : PulseLen),
    (sendOps r (frame code w prof pl)).length = r * (4 * w + 6) ∧
    (∀ i, i < r * (4 * w + 6) →
      (sendOps r (frame code w prof pl))[i]? = (frame code w prof pl)[i % (4 * w + 6)]?) ∧
    (∀ (t0 k : Nat), k < r →
      assertTime t0 (sendOps r (frame code w prof pl)) ((k + 1) * (4 * w + 6)) =
        deadline t0 (sendOps r (frame code w prof pl)) ((k + 1) * (4 * w + 6) - 1) ∧
      deadline t0 (sendOps r (frame code w prof pl)) ((k + 1) * (4 * w + 6) - 1) =
        t0 + (k + 1) * totalDur (frame code w prof pl)) ∧
    ∀ op ∈ sendOps r (frame code w prof 0), op.dur = 0

/-- R129 through the machine: an accepted TX_SEND and then R(4W + 6) DRV_RESP(ok) end with SUCCESS, the line high, and
exactly the ops of R frames added to the drive log, in order. -/
def Obligations.WholeSendDrivesEveryFrame : Prop :=
  ∀ (proto : ProtoIdx) (plv blv : Bool) (rep : BitVec 16) (pl : PulseLen) (bl : BitVec 8) (code : Code) (s : State)
    (prof : Profile), s.txState = .idle → lookup s.pt proto = some prof → rep ≠ 0 →
    ∃ s1 t : State, exec (.txSend proto plv blv rep pl bl code) s = .next s1 ∧
      drivesOk (rep.toNat * (4 * dataWidth code blv bl + 6)) s1 = .next t ∧
      t.driveLog = s.driveLog ++
        sendOps rep.toNat (frame code (dataWidth code blv bl) prof (pulseInEffect prof plv pl)) ∧
      t.txState = .idle ∧ t.txResult = .success ∧ t.txLine = .H ∧ t.outstanding = none

/-- R137: a drive that fails after n others have succeeded leaves exactly the first n + 1 ops of the send in the drive
log, and the send is over. -/
def Obligations.FailedDriveEmitsNothingFurther : Prop :=
  ∀ (proto : ProtoIdx) (plv blv : Bool) (rep : BitVec 16) (pl : PulseLen) (bl : BitVec 8) (code : Code) (s : State)
    (prof : Profile) (n : Nat), s.txState = .idle → lookup s.pt proto = some prof →
    n < rep.toNat * (4 * dataWidth code blv bl + 6) →
    ∃ s1 s2 t : State, exec (.txSend proto plv blv rep pl bl code) s = .next s1 ∧ drivesOk n s1 = .next s2 ∧
      exec (.drvResp false) s2 = .next t ∧
      t.driveLog = s.driveLog ++
        (sendOps rep.toNat (frame code (dataWidth code blv bl) prof (pulseInEffect prof plv pl))).take (n + 1) ∧
      t.txState = .idle ∧ t.txResult = .transmitIoFailure ∧ t.outstanding = none

/-! ## Line code -/

/-- The frame is the concatenation of its pairs (R127), and the bits the opcode table gives the pairs and the symbol
groups are the levels of their ops and the symbols they stand for (R79, R80, R82, R83). -/
def Obligations.FrameIsItsLineCode : Prop :=
  (∀ (code : Code) (w : Nat) (prof : Profile) (pl : PulseLen),
    frame code w prof pl = (framePairs code w).flatMap (pairOps prof pl)) ∧
  (∀ (prof : Profile) (pl : PulseLen),
    lineBits .lineSyncOpen = some ((pairOps prof pl .syncOpen).map fun op => levelBit op.level) ∧
    lineBits .lineSym1 = some ((pairOps prof pl (.sym true)).map fun op => levelBit op.level) ∧
    lineBits .lineSym0 = some ((pairOps prof pl (.sym false)).map fun op => levelBit op.level) ∧
    lineBits .lineCloseMark = some ((pairOps prof pl .closeMark).map fun op => levelBit op.level)) ∧
  lineBits .symbitsData0 = some (expand false) ∧ lineBits .symbitsData1 = some (expand true) ∧
  ∀ (code : Code) (w : Nat), ∃ framing rest, lineBits .symbitsFraming = some framing ∧
    symbols code w = framing ++ rest ∧ rest = (dataBits code w).flatMap expand

/-- LINE_SYNC_OPEN at the start of a frame (R127): both ops of the opening sync are driven; the first symbol's op is
then the outstanding one. (That the row runs so is the model's reading, log entry 15.) -/
def Obligations.LineSyncOpenDrivesSync : Prop :=
  ∀ (s : State) (prof : Profile), s.txState = .sending → lookup s.pt s.tx.proto = some prof →
    s.tx.op = 0 → s.tx.rep ≠ s.tx.r →
    ∃ d e : Dur, d.toNat = prof.syncLow.toNat * s.tx.pl.toNat ∧ e.toNat = prof.oneHigh.toNat * s.tx.pl.toNat ∧
      exec .lineSyncOpen s = .next
        { s with
          txLine := .L, tx := { s.tx with op := 2 }, outstanding := some ⟨.H, e⟩,
          driveLog := s.driveLog ++ [⟨.L, d⟩, ⟨.H, e⟩] }

/-- LINE_SYM1 and LINE_SYM0 where symbol k of the frame is that bit (R126): the pair is driven and the op after it
presented. (Log entry 15.) -/
def Obligations.LineSymbolsDrivePair : Prop :=
  ∀ (s : State) (prof : Profile) (k : Nat) (nxt : DriveOp), s.txState = .sending →
    lookup s.pt s.tx.proto = some prof → s.tx.op.toNat = 2 + 2 * k → s.tx.rep ≠ s.tx.r →
    (frame s.tx.code s.tx.w.toNat prof s.tx.pl)[4 + 2 * k]? = some nxt →
    ((symbols s.tx.code s.tx.w.toNat)[k]? = some true →
      ∃ d : Dur, d.toNat = prof.oneLow.toNat * s.tx.pl.toNat ∧
        exec .lineSym1 s = .next
          { s with
            txLine := .L, tx := { s.tx with op := s.tx.op + 2 }, outstanding := some nxt,
            driveLog := s.driveLog ++ [⟨.L, d⟩, nxt] }) ∧
    ((symbols s.tx.code s.tx.w.toNat)[k]? = some false →
      ∃ d : Dur, d.toNat = prof.zeroLow.toNat * s.tx.pl.toNat ∧
        exec .lineSym0 s = .next
          { s with
            txLine := .L, tx := { s.tx with op := s.tx.op + 2 }, outstanding := some nxt,
            driveLog := s.driveLog ++ [⟨.L, d⟩, nxt] })

/-- LINE_CLOSE_MARK where the frame's symbols are done (R127, R136): both high ops are driven; then the next frame
begins, or the send ends with SUCCESS and the line high. (Log entry 15.) -/
def Obligations.LineCloseMarkEndsFrame : Prop :=
  ∀ (s : State) (prof : Profile), s.txState = .sending → lookup s.pt s.tx.proto = some prof →
    s.tx.op.toNat = 4 * s.tx.w.toNat + 4 → s.tx.rep ≠ s.tx.r →
    ∃ d : Dur, d.toNat = prof.syncHigh.toNat * s.tx.pl.toNat ∧
      (s.tx.rep + 1 ≠ s.tx.r →
        exec .lineCloseMark s = .next
          { s with
            txLine := .H, tx := { s.tx with op := 0, rep := s.tx.rep + 1 }, outstanding := some ⟨.H, d⟩,
            driveLog := s.driveLog ++ [⟨.H, d⟩, ⟨.H, d⟩] }) ∧
      (s.tx.rep + 1 = s.tx.r →
        ∃ (regs : TxRegs) (k : Nat), exec .lineCloseMark s = .next
          { s with
            txState := .idle, txResult := .success, txLine := .H, tx := regs, outstanding := none,
            driveLog := s.driveLog ++ [⟨.H, d⟩], freeIdx := k })

/-- SYMBITS_FRAMING after the opening sync (R125): the pair of a symbol 1 is driven. (Log entry 16.) -/
def Obligations.SymbitsFramingDrivesOne : Prop :=
  ∀ (s : State) (prof : Profile) (nxt : DriveOp), s.txState = .sending → lookup s.pt s.tx.proto = some prof →
    s.tx.op = 2 → s.tx.rep ≠ s.tx.r →
    (frame s.tx.code s.tx.w.toNat prof s.tx.pl)[4]? = some nxt →
    ∃ d : Dur, d.toNat = prof.oneLow.toNat * s.tx.pl.toNat ∧
      exec .symbitsFraming s = .next
        { s with
          txLine := .L, tx := { s.tx with op := 4 }, outstanding := some nxt,
          driveLog := s.driveLog ++ [⟨.L, d⟩, nxt] }

/-- SYMBITS_DATA0 and SYMBITS_DATA1 where data bit j of the frame is that bit (R125): the two symbols' pairs are
driven, "01" or "10". (Log entry 16.) -/
def Obligations.SymbitsDataDriveBothSymbols : Prop :=
  ∀ (s : State) (prof : Profile) (j : Nat) (nxt : DriveOp), s.txState = .sending →
    lookup s.pt s.tx.proto = some prof → j < s.tx.w.toNat → s.tx.op.toNat = 4 + 4 * j → s.tx.rep ≠ s.tx.r →
    (frame s.tx.code s.tx.w.toNat prof s.tx.pl)[8 + 4 * j]? = some nxt →
    ∃ zl ol zh oh : Dur,
      zl.toNat = prof.zeroLow.toNat * s.tx.pl.toNat ∧ ol.toNat = prof.oneLow.toNat * s.tx.pl.toNat ∧
      zh.toNat = prof.zeroHigh.toNat * s.tx.pl.toNat ∧ oh.toNat = prof.oneHigh.toNat * s.tx.pl.toNat ∧
      (s.tx.code.getLsbD (s.tx.w.toNat - 1 - j) = false →
        exec .symbitsData0 s = .next
          { s with
            txLine := .L, tx := { s.tx with op := s.tx.op + 4 }, outstanding := some nxt,
            driveLog := s.driveLog ++ [⟨.L, zl⟩, ⟨.H, oh⟩, ⟨.L, ol⟩, nxt] }) ∧
      (s.tx.code.getLsbD (s.tx.w.toNat - 1 - j) = true →
        exec .symbitsData1 s = .next
          { s with
            txLine := .L, tx := { s.tx with op := s.tx.op + 4 }, outstanding := some nxt,
            driveLog := s.driveLog ++ [⟨.L, ol⟩, ⟨.H, zh⟩, ⟨.L, zl⟩, nxt] })

/-- A line-code row anywhere but at the start of its own stretch of a frame being sent stops, by name. (The model's
reading, log entry 17.) -/
def Obligations.LineCodeElsewhereStops : Prop :=
  ∀ s : State,
    (s.txState = .idle ∨ s.tx.op ≠ 0 → exec .lineSyncOpen s = .fault .linePartNotDue) ∧
    (s.txState = .idle ∨ (¬∃ k, s.tx.op.toNat = 2 + 2 * k ∧ (symbols s.tx.code s.tx.w.toNat)[k]? = some true) →
      exec .lineSym1 s = .fault .linePartNotDue) ∧
    (s.txState = .idle ∨ (¬∃ k, s.tx.op.toNat = 2 + 2 * k ∧ (symbols s.tx.code s.tx.w.toNat)[k]? = some false) →
      exec .lineSym0 s = .fault .linePartNotDue) ∧
    (s.txState = .idle ∨ s.tx.op.toNat ≠ 4 * s.tx.w.toNat + 4 → exec .lineCloseMark s = .fault .linePartNotDue) ∧
    (s.txState = .idle ∨ s.tx.op ≠ 2 → exec .symbitsFraming s = .fault .linePartNotDue) ∧
    (s.txState = .idle ∨ (¬∃ j, j < s.tx.w.toNat ∧ s.tx.op.toNat = 4 + 4 * j ∧
        s.tx.code.getLsbD (s.tx.w.toNat - 1 - j) = false) → exec .symbitsData0 s = .fault .linePartNotDue) ∧
    (s.txState = .idle ∨ (¬∃ j, j < s.tx.w.toNat ∧ s.tx.op.toNat = 4 + 4 * j ∧
        s.tx.code.getLsbD (s.tx.w.toNat - 1 - j) = true) → exec .symbitsData1 s = .fault .linePartNotDue)

/-! ## Receive: the decoder -/

/-- R160: within tolerance is 5·|m − e| ≤ e, exactly; and R162: that is the interval from ⌈4e/5⌉ to ⌊6e/5⌋. -/
def Obligations.ToleranceIsOneFifth : Prop :=
  ∀ m e : Nat,
    (within m e = true ↔ 5 * ((m : Int) - (e : Int)).natAbs ≤ e) ∧
    (within m e = true ↔ (4 * e + 4) / 5 ≤ m ∧ m ≤ 6 * e / 5)

/-- R166 and R167. A pair fits the zero pair (the one pair) when both its parts are within a fifth of that pair's parts at
the profile's own pulse length; its deviation from it is the sum of the two absolute deviations. A pair that fits one of
the two is that bit; one that fits both goes to the nearer, a tie to 0; one that fits neither is NONE. -/
def Obligations.ClassifyNearestTieZero : Prop :=
  ∀ (prof : Profile) (h l : Nat),
    (fitsZero prof h l = true ↔
      5 * ((h : Int) - (prof.zeroHigh.toNat * prof.pulseLength.toNat : Nat)).natAbs ≤
        prof.zeroHigh.toNat * prof.pulseLength.toNat ∧
      5 * ((l : Int) - (prof.zeroLow.toNat * prof.pulseLength.toNat : Nat)).natAbs ≤
        prof.zeroLow.toNat * prof.pulseLength.toNat) ∧
    (fitsOne prof h l = true ↔
      5 * ((h : Int) - (prof.oneHigh.toNat * prof.pulseLength.toNat : Nat)).natAbs ≤
        prof.oneHigh.toNat * prof.pulseLength.toNat ∧
      5 * ((l : Int) - (prof.oneLow.toNat * prof.pulseLength.toNat : Nat)).natAbs ≤
        prof.oneLow.toNat * prof.pulseLength.toNat) ∧
    devZero prof h l =
      ((h : Int) - (prof.zeroHigh.toNat * prof.pulseLength.toNat : Nat)).natAbs +
        ((l : Int) - (prof.zeroLow.toNat * prof.pulseLength.toNat : Nat)).natAbs ∧
    devOne prof h l =
      ((h : Int) - (prof.oneHigh.toNat * prof.pulseLength.toNat : Nat)).natAbs +
        ((l : Int) - (prof.oneLow.toNat * prof.pulseLength.toNat : Nat)).natAbs ∧
    (fitsZero prof h l = false → fitsOne prof h l = true → classify prof h l = some true) ∧
    (fitsZero prof h l = true → fitsOne prof h l = false → classify prof h l = some false) ∧
    (fitsZero prof h l = false → fitsOne prof h l = false → classify prof h l = none) ∧
    (fitsZero prof h l = true → fitsOne prof h l = true →
      (devOne prof h l < devZero prof h l → classify prof h l = some true) ∧
      (devZero prof h l ≤ devOne prof h l → classify prof h l = some false))

/-- R163, R164 and R175: 48 entries or fewer never match; neither does a buffer whose first two entries are not the
opening sync within tolerance; and a Match reports the measured sync over its units, truncated, as its pulse length.
R165, R166, R168, R169 and R172, the pair walk: a buffer that matches is the sync, a first pair that classifies (as 0 or
as 1), the pairs whose bits are the raw pattern in order, and a pair that is NONE and passes the marker test, with
anything after it; and a buffer so made, with more than 48 entries, whose raw bits are doubled bits (R80), matches. -/
def Obligations.DecodeGateAndInferredPulse : Prop :=
  ∀ (es : List Nat) (prof : Profile),
    (es.length ≤ 48 → tryDecode es prof = none) ∧
    (∀ e0 e1 rest, es = e0 :: e1 :: rest →
      ((within e0 (prof.syncHigh.toNat * prof.pulseLength.toNat) = false ∨
        within e1 (prof.syncLow.toNat * prof.pulseLength.toNat) = false) → tryDecode es prof = none) ∧
      ∀ m, tryDecode es prof = some m →
        m.pulseLengthUs = (e0 + e1) / (prof.syncHigh.toNat + prof.syncLow.toNat)) ∧
    (∀ m, tryDecode es prof = some m →
      ∃ (e0 e1 f0 f1 : Nat) (ps : List (Nat × Nat)) (h l : Nat) (rest : List Nat),
        es = e0 :: e1 :: f0 :: f1 :: (ps.flatMap fun p => [p.1, p.2]) ++ h :: l :: rest ∧
        classify prof f0 f1 ≠ none ∧
        m.rc = ps.length ∧
        (∀ k p, ps[k]? = some p → classify prof p.1 p.2 = some (m.raw.testBit (m.rc - 1 - k))) ∧
        classify prof h l = none ∧
        within h (prof.syncHigh.toNat * prof.pulseLength.toNat) = true ∧
        within l (prof.syncHigh.toNat * prof.pulseLength.toNat) = true) ∧
    ∀ (e0 e1 f0 f1 : Nat) (ps : List (Nat × Nat)) (h l : Nat) (rest : List Nat) (logical : List Bool),
      es = e0 :: e1 :: f0 :: f1 :: (ps.flatMap fun p => [p.1, p.2]) ++ h :: l :: rest → 48 < es.length →
      within e0 (prof.syncHigh.toNat * prof.pulseLength.toNat) = true →
      within e1 (prof.syncLow.toNat * prof.pulseLength.toNat) = true →
      classify prof f0 f1 ≠ none →
      (ps.map fun p => classify prof p.1 p.2) = (logical.flatMap expand).map some →
      classify prof h l = none →
      within h (prof.syncHigh.toNat * prof.pulseLength.toNat) = true →
      within l (prof.syncHigh.toNat * prof.pulseLength.toNat) = true →
      ∃ m, tryDecode es prof = some m ∧ m.rc = ps.length ∧ m.bitLength = logical.length

/-- R171: entries after the closing marker are not read. Where the walk meets the marker within p, what stands after p
changes nothing of the decode, Match or not, as long as there are more than 48 entries; and a Match of a buffer is the
Match of every longer one. -/
def Obligations.EntriesAfterMarkerIgnored : Prop :=
  ∀ (p x y : List Nat) (prof : Profile),
    (∀ raw, walk prof false (p.drop 2) = some raw → 48 < (p ++ x).length → 48 < (p ++ y).length →
      tryDecode (p ++ x) prof = tryDecode (p ++ y) prof) ∧
    ∀ m, tryDecode p prof = some m → tryDecode (p ++ x) prof = some m

/-- R173 and R174: the k-th pair of the raw pattern from its most significant end is "01" for a logical 0 and "10" for
a logical 1, the code is those bits, and the bit length is half the count. -/
def Obligations.MatchUndoublesRawPattern : Prop :=
  ∀ (es : List Nat) (prof : Profile) (m : Match), tryDecode es prof = some m →
    m.rc % 2 = 0 ∧ m.bitLength = m.rc / 2 ∧ m.raw < 2 ^ m.rc ∧ m.code < 2 ^ m.bitLength ∧
    ∀ k, k < m.rc / 2 →
      m.raw / 2 ^ (m.rc - 2 - 2 * k) % 4 = if m.code.testBit (m.bitLength - 1 - k) then 2 else 1

/-- R180: what a Match of a buffer of at most 256 32-bit entries can hold. -/
def Obligations.MatchBounds : Prop :=
  ∀ (es : List Nat) (prof : Profile) (m : Match), tryDecode es prof = some m → es.length ≤ 256 →
    (∀ e ∈ es, e < 2 ^ 32) →
    49 ≤ es.length ∧ m.rc ≤ 124 ∧ m.bitLength ≤ 62 ∧ m.code < 2 ^ 62 ∧ m.raw < 2 ^ 124 ∧ m.pulseLengthUs < 2 ^ 32

/-- R167's consequence: with equal zero and one pairs every pair reads as 0, so only an empty frame (marker straight
after the framing bit, rc = 0) can match. (R177's corner case says "always NoMatch"; its pseudocode, which the model
follows, matches rc = 0: log entry 25.) -/
def Obligations.EqualSymbolPairsMatchOnlyEmptyFrame : Prop :=
  ∀ (es : List Nat) (prof : Profile) (m : Match), prof.zeroHigh = prof.oneHigh → prof.zeroLow = prof.oneLow →
    tryDecode es prof = some m → m.rc = 0

/-- R181: the durations of a transmitted frame decode to its code, its width and its pulse length. -/
def Obligations.FrameDecodesBack : Prop :=
  ∀ (code : Code) (w : Nat) (prof : Profile), 11 ≤ w → w ≤ 62 → bitlen1 code.toNat ≤ w →
    ¬(prof.zeroHigh = prof.oneHigh ∧ prof.zeroLow = prof.oneLow) →
    fitsZero prof (expected prof prof.syncHigh) (expected prof prof.syncHigh) = false →
    fitsOne prof (expected prof prof.syncHigh) (expected prof prof.syncHigh) = false →
    ∃ m, tryDecode ((frame code w prof prof.pulseLength).map fun op => op.dur.toNat) prof = some m ∧
      m.code = code.toNat ∧ m.bitLength = w ∧ m.pulseLengthUs = prof.pulseLength.toNat

/-! ## Receive: the filter -/

/-- R204: the minimal rendering holds no "0000" and is longer than 32 characters; and in integer form: raw ≥ 2^32 and no
four zero bits in a row within the rendering. -/
def Obligations.NoiseCheckIntegerForm : Prop :=
  ∀ raw : Nat,
    (noiseOk raw = true ↔
      ¬[false, false, false, false] <:+: render raw ∧ 32 < (render raw).length) ∧
    (noiseOk raw = true ↔ raw ≥ 2 ^ 32 ∧ ¬∃ k, k + 4 ≤ bitlen1 raw ∧ raw / 2 ^ k % 16 = 0)

/-- R212: the raw pattern of a Match never holds "0000", so a Match passes the noise check exactly when its bit length
is 17 or more. -/
def Obligations.MatchPassesNoiseByLengthOnly : Prop :=
  ∀ (es : List Nat) (prof : Profile) (m : Match), tryDecode es prof = some m →
    occursIn noiseRun (render m.raw) = false ∧ (noiseOk m.raw = true ↔ 17 ≤ m.bitLength)

/-- R201: the duration of an edge is the difference of the timestamps modulo 2^32, and every RX_EDGE answers a next
state whose last timestamp is its own. -/
def Obligations.EdgeDurationWraps : Prop :=
  ∀ (ts : Stamp) (s : State),
    (edgeDuration s ts).toNat = (ts.toNat + 2 ^ 32 - s.rxLastTs.toNat) % 2 ^ 32 ∧
    ∃ t, exec (.rxEdge ts) s = .next t ∧ t.rxLastTs = ts

/-- R209: an edge of at most 2000 µs with fewer than 256 entries held is appended; nothing else changes. -/
def Obligations.RxEdgeAppends : Prop :=
  ∀ (ts : Stamp) (s : State), (edgeDuration s ts).toNat ≤ 2000 → s.rxCount.toNat < 256 →
    ∃ t, exec (.rxEdge ts) s = .next t ∧
      (∀ k : Fin rxCapacity, t.rxb[k] = if k.val = s.rxCount.toNat then edgeDuration s ts else s.rxb[k]) ∧
      t.rxCount.toNat = s.rxCount.toNat + 1 ∧
      t = { s with rxLastTs := ts, rxb := t.rxb, rxCount := t.rxCount }

/-- R208: an edge of at most 2000 µs at 256 entries resets the buffer without a decode and without an event. -/
def Obligations.RxEdgeOverflowResets : Prop :=
  ∀ (ts : Stamp) (s : State), (edgeDuration s ts).toNat ≤ 2000 → 256 ≤ s.rxCount.toNat →
    ∃ t, exec (.rxEdge ts) s = .next t ∧
      (∀ k : Fin rxCapacity, t.rxb[k] = if k.val = 0 then edgeDuration s ts else 0) ∧
      t = { s with rxLastTs := ts, rxb := t.rxb, rxCount := 1 }

/-- R207: a boundary edge always resets the buffer, records its own duration and starts the count at 1, whatever was
decoded; only the event log may change besides. -/
def Obligations.RxEdgeBoundaryResets : Prop :=
  ∀ (ts : Stamp) (s : State), 2000 < (edgeDuration s ts).toNat →
    ∃ t, exec (.rxEdge ts) s = .next t ∧
      (∀ k : Fin rxCapacity, t.rxb[k] = if k.val = 0 then edgeDuration s ts else 0) ∧
      t = { s with rxLastTs := ts, rxb := t.rxb, rxCount := 1, eventLog := t.eventLog }

/-- R203, R205 and R206: at a boundary the first protocol in ascending order that matches decides. Passing the noise
check it emits its DecodedCode, with the whole buffer as raw timings; failing it, or with no match at all, nothing is
emitted. -/
def Obligations.RxEdgeBoundaryEvent : Prop :=
  ∀ (ts : Stamp) (s : State), 2000 < (edgeDuration s ts).toNat → s.rxCount.toNat ≤ 256 →
    ∃ t, exec (.rxEdge ts) s = .next t ∧
      (∀ p m, s.FirstMatch p m → noiseOk m.raw = true →
        ∃ e : DecodedCode, t.eventLog = s.eventLog ++ [e] ∧ e.protocol = p ∧ e.code.toNat = m.code ∧
          e.bitLength.toNat = m.bitLength ∧ e.pulseLengthUs.toNat = m.pulseLengthUs ∧ e.rawCount = s.rxCount ∧
          e.rawTimings = s.rxb.toList.take s.rxCount.toNat) ∧
      (∀ p m, s.FirstMatch p m → noiseOk m.raw = false → t.eventLog = s.eventLog) ∧
      (s.NoMatch → t.eventLog = s.eventLog)

/-- R215: a buffer that a boundary started never begins with the durations of a frame sent with the profile's own pulse
length and no jitter, whatever follows them. -/
def Obligations.ZeroJitterFrameNeverHeld : Prop :=
  ∀ (s : State) (code : Code) (w : Nat) (prof : Profile), s.RxInv → 2000 < s.rxb[0].toNat →
    ¬((frame code w prof prof.pulseLength).map fun op => op.dur.toNat) <+: s.entries

/-! ## Reset -/

/-- R270, R272 and R273: RESET sets the state of R31 and leaves the table, the logs, the marks and the words not yet
taken; a request that was outstanding is withdrawn. The transmit fields are unspecified: free values (log entry 9). An
answer to the withdrawn request is a no move (R139), which the model says with the fault drvRespWhileIdle: the model's
choice (log entry 7). -/
def Obligations.ResetClearsBlock : Prop :=
  ∀ s : State, ∃ (regs : TxRegs) (k : Nat) (rxb : Vector Dur rxCapacity) (t : State),
    (∀ j : Fin rxCapacity, rxb[j] = 0) ∧ exec .reset s = .next t ∧
    t = { s with
          txState := .idle, txResult := .none, txLine := .L, tx := regs, outstanding := none, rxb := rxb,
          rxCount := 0, rxLastTs := 0, freeIdx := k } ∧
    ∀ ok, exec (.drvResp ok) t = .fault .drvRespWhileIdle

/-- R31 and R271: power-on leaves every piece of state at the spec's value, with a buffer of 257 entries (R10), empty logs
and no marks; and R29, R85 and R135 hold there. -/
def Obligations.ResetStateMeetsInvariant : Prop :=
  rxCapacity = 257 ∧
  State.reset.txState = .idle ∧ State.reset.txResult = .none ∧ State.reset.txLine = .L ∧
  State.reset.outstanding = none ∧ (∀ k : Fin rxCapacity, State.reset.rxb[k] = 0) ∧ State.reset.rxCount = 0 ∧
  State.reset.rxLastTs = 0 ∧ State.reset.driveLog = [] ∧ State.reset.eventLog = [] ∧
  State.reset.unmarked = true ∧ State.reset.Inv

/-! ## The whole block -/

/-- Every step keeps the TX sequencer's invariant (R24, R85, R135). -/
def Obligations.StepKeepsTransmitInvariant : Prop :=
  ∀ s t : State, s.TxInv → step s = .next t → t.TxInv

/-- Every step keeps the RX engine's invariant (R29, R213). -/
def Obligations.StepKeepsReceiveInvariant : Prop :=
  ∀ s t : State, s.RxInv → step s = .next t → t.RxInv

/-- Every event ever emitted keeps to R214's bounds. -/
def Obligations.StepKeepsEventsBounded : Prop :=
  ∀ s t : State, s.RxInv → s.EventsBounded → step s = .next t → t.EventsBounded

/-- From a state that meets the transmit invariant, a step stops only on a DRV_RESP that answers no request: R139 and R250
have no step there, and that the model says so with the fault drvRespWhileIdle is its choice (log entry 7). And no step of
the model is ever refused: a reserved word, which R75 refuses by name, sets the refusal mark and the run goes on, by the
model's reading of R75 (log entry 5). -/
def Obligations.OnlyStrayDrvRespStops : Prop :=
  (∀ (s : State) (f : Fault), s.TxInv → step s = .fault f →
    f = .drvRespWhileIdle ∧ s.txState = .idle ∧
      ∃ w ws ok, s.input = w :: ws ∧ decode w = .instr (.drvResp ok)) ∧
  ∀ (s : State) (r : Refusal), step s ≠ .refused r

/-- R34 and R142: the transmit commands and the line code never touch the receive state, the event log or the words not
yet taken. -/
def Obligations.TransmitLeavesReceive : Prop :=
  ∀ (i : Instr) (s t : State), (∀ ts, i ≠ .rxEdge ts) → i ≠ .reset → exec i s = .next t →
    t.rxb = s.rxb ∧ t.rxCount = s.rxCount ∧ t.rxLastTs = s.rxLastTs ∧ t.eventLog = s.eventLog ∧ t.input = s.input

/-- R34 and R218: RX_EDGE never touches the transmit state, the drive log, the marks or the words not yet taken, during
a send or not. -/
def Obligations.ReceiveLeavesTransmit : Prop :=
  ∀ (ts : Stamp) (s : State), ∃ t, exec (.rxEdge ts) s = .next t ∧
    t = { s with
          rxb := t.rxb, rxCount := t.rxCount, rxLastTs := t.rxLastTs, eventLog := t.eventLog }

/-- R60: a transmit command and an RX_EDGE give the same state in either order. -/
def Obligations.TransmitAndReceiveCommute : Prop :=
  ∀ (i : Instr) (ts : Stamp) (s : State), (∀ ts, i ≠ .rxEdge ts) → i ≠ .reset →
    andThen (exec i s) (exec (.rxEdge ts)) = andThen (exec (.rxEdge ts) s) (exec i)
end

