-- ==== Sys2Proof/Laws/Decode.lean ====
section
/-! SUPPORT. Fields of a command word as numbers, and what the decoder can answer (R12, R90). -/

namespace Sys2Proof

/-- A field is the number its bits spell (R71). -/
theorem bits_toNat (v : CmdWord) (lo width : Nat) : (bits v lo width).toNat = v.toNat / 2 ^ lo % 2 ^ width := by
  simp [bits, Nat.shiftRight_eq_div_pow]

theorem bits_eq_zero_iff (v : CmdWord) (lo width : Nat) : bits v lo width = 0 ↔ v.toNat / 2 ^ lo % 2 ^ width = 0 := by
  rw [← bits_toNat]; exact ⟨fun h => by simp [h], fun h => BitVec.eq_of_toNat_eq (by simpa using h)⟩

theorem opcodeOf_eq_iff (v : CmdWord) (n : Nat) (hn : n < 16) : opcodeOf v = BitVec.ofNat 4 n ↔ v.toNat % 16 = n := by
  rw [opcodeOf, ← BitVec.toNat_inj, bits_toNat, BitVec.toNat_ofNat]
  norm_num
  omega

theorem getLsbD_eq_decide (v : CmdWord) (k : Nat) : v.getLsbD k = decide (v.toNat / 2 ^ k % 2 = 1) := by
  rw [BitVec.getLsbD, Nat.testBit_eq_decide_div_mod_eq]

/-- A decoded instruction is one of the four command words (R90). -/
theorem decode_instr_cases {w : CmdWord} {i : Instr} (h : decode w = .instr i) :
    (∃ p a b r l n c, i = .txSend p a b r l n c) ∨ (∃ ok, i = .drvResp ok) ∨ (∃ ts, i = .rxEdge ts) ∨ i = .reset := by
  unfold decode decodeTxSend decodeDrvResp decodeRxEdge decodeReset at h
  split at h
  · split at h
    · cases h; exact .inl ⟨_, _, _, _, _, _, _, rfl⟩
    · cases h
  · split at h
    · split at h
      · cases h; exact .inr (.inl ⟨_, rfl⟩)
      · cases h
    · split at h
      · split at h
        · cases h; exact .inr (.inr (.inl ⟨_, rfl⟩))
        · cases h
      · split at h
        · split at h
          · cases h; exact .inr (.inr (.inr rfl))
          · cases h
        · cases h

/-- Decoding a whole word never finds it incomplete. -/
theorem decode_ne_incomplete (w : CmdWord) : decode w ≠ .rejected .incompleteWord := by
  unfold decode decodeTxSend decodeDrvResp decodeRxEdge decodeReset
  repeat' split
  all_goals simp

end Sys2Proof
end

