-- ==== Sys2Proof/Laws/Operands.lean ====
section
/-! SUPPORT. What the minimal rendering and its bits are (R13): one lemma per function. -/

namespace Sys2Proof.Machine

@[simp] theorem bitlen1_zero : bitlen1 0 = 1 := rfl

theorem bitlen1_pos (v : Nat) : 1 ≤ bitlen1 v := by
  unfold bitlen1; split <;> omega

theorem lt_two_pow_bitlen1 (v : Nat) : v < 2 ^ bitlen1 v := by
  unfold bitlen1
  split
  · omega
  · exact Nat.lt_log2_self

theorem bitlen1_le_iff (v k : Nat) (hk : 1 ≤ k) : bitlen1 v ≤ k ↔ v < 2 ^ k := by
  unfold bitlen1
  split
  · subst_vars; simp [hk]
  · rename_i h; rw [← Nat.log2_lt h]; omega

theorem bitlen1_code_le (code : Code) : bitlen1 code.toNat ≤ 64 :=
  (bitlen1_le_iff _ _ (by omega)).2 code.isLt

@[simp] theorem msbBits_length (v k : Nat) : (msbBits v k).length = k := by
  induction k <;> simp [msbBits, *]

/-- The j-th bit from the left is bit k − 1 − j. -/
theorem msbBits_getElem? (v k j : Nat) (h : j < k) : (msbBits v k)[j]? = some (v.testBit (k - 1 - j)) := by
  induction k generalizing j with
  | zero => omega
  | succ k ih =>
    cases j with
    | zero => simp [msbBits]
    | succ j =>
      rw [msbBits, List.getElem?_cons_succ, ih j (by omega)]
      congr 2; omega

@[simp] theorem render_length (v : Nat) : (render v).length = bitlen1 v := msbBits_length _ _

theorem dataWidth_le (code : Code) (blv : Bool) (bl : BitVec 8) : dataWidth code blv bl ≤ 255 := by
  have := bitlen1_code_le code
  have := bl.isLt
  simp only [dataWidth, selectedBitLength, blLong, blShort]
  split
  · omega
  · split <;> omega

theorem bitlen1_le_dataWidth (code : Code) (blv : Bool) (bl : BitVec 8) : bitlen1 code.toNat ≤ dataWidth code blv bl :=
  le_max_right _ _

/-- The width register holds W exactly (R124: W is at most 255). -/
theorem dataWidth_toNat (code : Code) (blv : Bool) (bl : BitVec 8) :
    (BitVec.ofNat 8 (dataWidth code blv bl)).toNat = dataWidth code blv bl := by
  have := dataWidth_le code blv bl
  rw [BitVec.toNat_ofNat, Nat.mod_eq_of_lt (by omega)]

end Sys2Proof.Machine
end

