-- ==== Sys2Proof/Laws/Frame.lean ====
section
/-! SUPPORT. The frame as a list of pairs, its length, and the ops of a repeated send (R125 to R129). -/

namespace Sys2Proof.Machine

/-- No duration of a drive operation is truncated (R134). -/
@[simp] theorem unitDur_toNat (c : UnitCount) (pl : PulseLen) : (unitDur c pl).toNat = c.toNat * pl.toNat := by
  have hc := c.isLt
  have hp := pl.isLt
  rw [unitDur, BitVec.toNat_ofNat, Nat.mod_eq_of_lt]
  exact lt_of_le_of_lt (Nat.mul_le_mul (Nat.le_of_lt_succ hc) (Nat.le_of_lt_succ hp)) (by norm_num)

@[simp] theorem expand_length (b : Bool) : (expand b).length = 2 := by cases b <;> rfl

@[simp] theorem pairOps_length (prof : Profile) (pl : PulseLen) (p : LinePair) : (pairOps prof pl p).length = 2 := by
  rcases p with _ | b | _
  · rfl
  · cases b <;> rfl
  · rfl

theorem flatMap_length_two {α β : Type} (f : α → List β) (hf : ∀ a, (f a).length = 2) (l : List α) :
    (l.flatMap f).length = 2 * l.length := by
  induction l with
  | nil => rfl
  | cons a l ih => simp [hf, ih]; omega

/-- Where every element gives two, element k gives entries 2k and 2k + 1. -/
theorem flatMap_two_getElem? {α β : Type} (f : α → List β) (hf : ∀ a, (f a).length = 2) (l : List α) (k j : Nat)
    (hj : j < 2) : (l.flatMap f)[2 * k + j]? = l[k]?.bind fun a => (f a)[j]? := by
  induction l generalizing k with
  | nil => simp
  | cons a l ih =>
    cases k with
    | zero =>
      have := hf a
      simp [List.getElem?_append, this, hj]
    | succ k =>
      have := hf a
      rw [List.flatMap_cons, List.getElem?_append_right (by omega), List.getElem?_cons_succ, ← ih k]
      congr 1; omega

@[simp] theorem dataBits_length (code : Code) (w : Nat) : (dataBits code w).length = w := msbBits_length _ _

theorem dataBits_getElem? (code : Code) (w j : Nat) (h : j < w) :
    (dataBits code w)[j]? = some (code.getLsbD (w - 1 - j)) := by
  rw [dataBits, msbBits_getElem? _ _ _ h, BitVec.testBit_toNat]

@[simp] theorem symbols_length (code : Code) (w : Nat) : (symbols code w).length = 1 + 2 * w := by
  rw [symbols, List.length_cons, flatMap_length_two _ expand_length, dataBits_length]; omega

@[simp] theorem framePairs_length (code : Code) (w : Nat) : (framePairs code w).length = 2 * w + 3 := by
  simp [framePairs]; omega

theorem frame_eq_pairs (code : Code) (w : Nat) (prof : Profile) (pl : PulseLen) :
    frame code w prof pl = (framePairs code w).flatMap (pairOps prof pl) := by
  simp [frame, framePairs, List.flatMap_append, pairOps, List.flatMap_map]

@[simp] theorem frame_length (code : Code) (w : Nat) (prof : Profile) (pl : PulseLen) :
    (frame code w prof pl).length = 4 * w + 6 := by
  rw [frame_eq_pairs, flatMap_length_two _ (pairOps_length prof pl), framePairs_length]; omega

/-- Pair k of a frame is its ops 2k and 2k + 1. -/
theorem frame_getElem? (code : Code) (w : Nat) (prof : Profile) (pl : PulseLen) (k j : Nat) (hj : j < 2) :
    (frame code w prof pl)[2 * k + j]? = (framePairs code w)[k]?.bind fun p => (pairOps prof pl p)[j]? := by
  rw [frame_eq_pairs, flatMap_two_getElem? _ (pairOps_length prof pl) _ _ _ hj]

@[simp] theorem framePairs_zero (code : Code) (w : Nat) : (framePairs code w)[0]? = some .syncOpen := rfl

theorem framePairs_sym (code : Code) (w k : Nat) (b : Bool) (h : (symbols code w)[k]? = some b) :
    (framePairs code w)[k + 1]? = some (.sym b) := by
  have hk : k < (symbols code w).length := by
    by_contra hc; rw [List.getElem?_eq_none (by omega)] at h; cases h
  rw [framePairs, List.cons_append, List.getElem?_cons_succ, List.getElem?_append_left (by simpa using hk),
    List.getElem?_map, h]
  rfl

theorem framePairs_close (code : Code) (w : Nat) : (framePairs code w)[2 * w + 2]? = some .closeMark := by
  rw [framePairs, List.cons_append, List.getElem?_cons_succ, List.getElem?_append_right (by simp; omega)]
  simp [show 2 * w + 1 - (1 + 2 * w) = 0 by omega]

/-- Symbol k of a frame is its ops 2k + 2 and 2k + 3. -/
theorem frame_sym {code : Code} {w k : Nat} {prof : Profile} {pl : PulseLen} {b : Bool} (h : (symbols code w)[k]? = some b) :
    (frame code w prof pl)[2 + 2 * k]? = (symOps prof pl b)[0]? ∧
      (frame code w prof pl)[3 + 2 * k]? = (symOps prof pl b)[1]? := by
  constructor
  · rw [show 2 + 2 * k = 2 * (k + 1) + 0 by omega, frame_getElem? _ _ _ _ _ _ (by omega), framePairs_sym _ _ _ _ h]; rfl
  · rw [show 3 + 2 * k = 2 * (k + 1) + 1 by omega, frame_getElem? _ _ _ _ _ _ (by omega), framePairs_sym _ _ _ _ h]; rfl

theorem frame_isSome (code : Code) (w : Nat) (prof : Profile) (pl : PulseLen) (k : Nat) (h : k < 4 * w + 6) :
    ∃ op, (frame code w prof pl)[k]? = some op :=
  ⟨_, List.getElem?_eq_getElem (by simpa using h)⟩

theorem frame_zero (code : Code) (w : Nat) (prof : Profile) (pl : PulseLen) :
    (frame code w prof pl)[0]? = some ⟨.H, unitDur prof.syncHigh pl⟩ := rfl

theorem frame_last (code : Code) (w : Nat) (prof : Profile) (pl : PulseLen) :
    (frame code w prof pl)[4 * w + 5]? = some ⟨.H, unitDur prof.syncHigh pl⟩ := by
  rw [show 4 * w + 5 = 2 * (2 * w + 2) + 1 by omega, frame_getElem? _ _ _ _ _ _ (by omega), framePairs_close]
  rfl

@[simp] theorem sendOps_length (r : Nat) (f : List DriveOp) : (sendOps r f).length = r * f.length := by
  simp [sendOps]

theorem sendOps_succ (r : Nat) (f : List DriveOp) : sendOps (r + 1) f = f ++ sendOps r f := by
  simp [sendOps, List.replicate_succ]

/-- Op i of a send is op i mod |FRAME| of the frame (R129). -/
theorem sendOps_getElem? (r : Nat) (f : List DriveOp) (i : Nat) (h : i < r * f.length) :
    (sendOps r f)[i]? = f[i % f.length]? := by
  induction r generalizing i with
  | zero => omega
  | succ r ih =>
    rw [sendOps_succ]
    by_cases hi : i < f.length
    · rw [List.getElem?_append_left hi, Nat.mod_eq_of_lt hi]
    · rw [Nat.succ_mul] at h
      rw [List.getElem?_append_right (by omega), ih _ (by omega), Nat.mod_eq_sub_mod (by omega : f.length ≤ i)]

end Sys2Proof.Machine
end

