-- ==== Sys2Proof/Laws/Decoder.lean ====
section
/-! SUPPORT. Everything a decode attempt can answer, one lemma per part of it (R160 to R177). -/

namespace Sys2Proof.Machine

/-- Undoubling is the inverse of the biphase expansion (R80, R173). -/
theorem undouble_eq_some_iff {raw logical : List Bool} : undouble raw = some logical ↔ raw = logical.flatMap expand := by
  constructor
  · intro h
    induction raw using undouble.induct generalizing logical with
    | case1 => cases h; rfl
    | case2 => cases h
    | case3 rest ih | case4 rest ih =>
      simp only [undouble, Option.map_eq_some_iff] at h
      obtain ⟨l, hl, rfl⟩ := h
      rw [ih hl]; rfl
    | case5 | case6 => cases h
  · rintro rfl
    induction logical with
    | nil => rfl
    | cons b l ih => cases b <;> simp [expand, undouble, ih]

theorem bitsValue_foldl (bs : List Bool) (a : Nat) :
    bs.foldl (fun acc b => 2 * acc + b.toNat) a = a * 2 ^ bs.length + bitsValue bs := by
  induction bs generalizing a with
  | nil => simp [bitsValue]
  | cons b bs ih =>
    rw [bitsValue, List.foldl_cons, List.foldl_cons, ih, ih]
    rw [List.length_cons, pow_succ]
    ring

/-- The first bit is the most significant. -/
theorem bitsValue_cons (b : Bool) (bs : List Bool) : bitsValue (b :: bs) = b.toNat * 2 ^ bs.length + bitsValue bs := by
  rw [bitsValue, List.foldl_cons, bitsValue_foldl]; simp

@[simp] theorem bitsValue_nil : bitsValue [] = 0 := rfl

theorem bitsValue_append (as bs : List Bool) : bitsValue (as ++ bs) = bitsValue as * 2 ^ bs.length + bitsValue bs := by
  rw [bitsValue, List.foldl_append, bitsValue_foldl]; rfl

theorem bitsValue_lt (bs : List Bool) : bitsValue bs < 2 ^ bs.length := by
  induction bs with
  | nil => simp
  | cons b bs ih =>
    rw [bitsValue_cons, List.length_cons, pow_succ]
    cases b <;> simp <;> omega

/-- The bits of a number, read back, are the number. -/
theorem bitsValue_msbBits (v k : Nat) : bitsValue (msbBits v k) = v % 2 ^ k := by
  induction k with
  | zero => simp [msbBits, Nat.mod_one]
  | succ k ih =>
    rw [msbBits, bitsValue_cons, ih, msbBits_length, pow_succ, Nat.mod_mul, Nat.testBit_eq_decide_div_mod_eq]
    rcases Nat.mod_two_eq_zero_or_one (v / 2 ^ k) with h | h <;> simp [h, Nat.add_comm]

/-- And the bits of the number a bit string spells are the bit string. -/
theorem msbBits_bitsValue (bs : List Bool) : msbBits (bitsValue bs) bs.length = bs := by
  have key : ∀ (k v w : Nat), v % 2 ^ k = w % 2 ^ k → msbBits v k = msbBits w k := by
    intro k
    induction k with
    | zero => intros; rfl
    | succ k ih =>
      intro v w h
      rw [msbBits, msbBits, ih v w]
      · congr 1
        have := congrArg (Nat.testBit · k) h
        simpa [Nat.testBit_mod_two_pow] using this
      · have := congrArg (· % 2 ^ k) h
        simpa [Nat.mod_mod_of_dvd _ (pow_dvd_pow 2 (Nat.le_succ k))] using this
  induction bs with
  | nil => rfl
  | cons b bs ih =>
    have hlt := bitsValue_lt bs
    rw [List.length_cons, msbBits, bitsValue_cons]
    congr 1
    · rw [Nat.mul_comm, Nat.testBit_two_pow_mul_add _ hlt]
      cases b <;> simp
    · rw [key _ _ (bitsValue bs), ih]
      simp

/-- The k-th bit from the left is bit n − 1 − k of the number. -/
theorem testBit_bitsValue {bs : List Bool} {k : Nat} (h : k < bs.length) :
    (bitsValue bs).testBit (bs.length - 1 - k) = bs[k] := by
  have := msbBits_getElem? (bitsValue bs) bs.length k h
  rw [msbBits_bitsValue, List.getElem?_eq_getElem h] at this
  exact (Option.some.inj this).symm

/-- Everything a Match says of the buffer (R163 to R176). -/
theorem tryDecode_eq_some {es : List Nat} {prof : Profile} {m : Match} (h : tryDecode es prof = some m) :
    ∃ e0 e1 rest logical, es = e0 :: e1 :: rest ∧ 48 < es.length ∧
      within e0 (expected prof prof.syncHigh) = true ∧ within e1 (expected prof prof.syncLow) = true ∧
      walk prof false rest = some (logical.flatMap expand) ∧
      m = ⟨bitsValue logical, logical.length, inferredPulse prof e0 e1, bitsValue (logical.flatMap expand),
        2 * logical.length⟩ := by
  unfold tryDecode at h
  split at h
  · cases h
  · rename_i hlen
    split at h
    · rename_i e0 e1 rest
      split at h
      · rename_i hw
        rw [Bool.and_eq_true] at hw
        obtain ⟨raw, hr, hf⟩ := Option.bind_eq_some_iff.1 h
        unfold finalize at hf
        split at hf
        · cases hf
        · obtain ⟨logical, hl, rfl⟩ := Option.map_eq_some_iff.1 hf
          rw [undouble_eq_some_iff] at hl
          subst hl
          have e := flatMap_length_two expand expand_length logical
          refine ⟨e0, e1, rest, logical, rfl, by simpa [minEdges] using hlen, hw.1, hw.2, hr, ?_⟩
          rw [e]
          simp
      · cases h
    · cases h

/-- And conversely: a long enough buffer that opens with the sync and walks to doubled bits is a Match (R163 to R176). -/
theorem tryDecode_of_walk {e0 e1 : Nat} {rest : List Nat} {logical : List Bool} {prof : Profile}
    (hlen : 48 < (e0 :: e1 :: rest).length) (h0 : within e0 (expected prof prof.syncHigh) = true)
    (h1 : within e1 (expected prof prof.syncLow) = true) (hw : walk prof false rest = some (logical.flatMap expand)) :
    tryDecode (e0 :: e1 :: rest) prof =
      some ⟨bitsValue logical, logical.length, inferredPulse prof e0 e1, bitsValue (logical.flatMap expand),
        2 * logical.length⟩ := by
  have hshort : ¬(e0 :: e1 :: rest).length ≤ minEdges := by simpa [minEdges] using hlen
  have hl := flatMap_length_two expand expand_length logical
  have hu := undouble_eq_some_iff.2 (rfl : logical.flatMap expand = logical.flatMap expand)
  rw [tryDecode, if_neg hshort]
  simp [h0, h1, hw, finalize, hl, hu]

/-- Before the framing bit: the first pair classifies as some bit, which is not kept (R168). -/
theorem walk_false_iff {prof : Profile} {es : List Nat} {raw : List Bool} :
    walk prof false es = some raw ↔
      ∃ h l rest b, es = h :: l :: rest ∧ classify prof h l = some b ∧ walk prof true rest = some raw := by
  constructor
  · intro w
    match es with
    | [] | [_] => cases w
    | h :: l :: rest =>
      rw [walk] at w
      cases hc : classify prof h l with
      | none => simp [hc] at w
      | some b => exact ⟨h, l, rest, b, rfl, hc, by simpa [hc] using w⟩
  · rintro ⟨h, l, rest, b, rfl, hc, w⟩
    simpa [walk, hc] using w

/-- After the framing bit: the pairs up to the closing marker classify as the raw bits, and what stands after the
marker is not read (R166, R169, R171). -/
theorem walk_true_iff {prof : Profile} {es : List Nat} {raw : List Bool} :
    walk prof true es = some raw ↔
      ∃ (ps : List (Nat × Nat)) (h l : Nat) (rest : List Nat),
        es = ps.flatMap (fun p => [p.1, p.2]) ++ h :: l :: rest ∧
        ps.map (fun p => classify prof p.1 p.2) = raw.map some ∧
        classify prof h l = none ∧ isMarker prof h l = true := by
  constructor
  · intro w
    induction raw generalizing es with
    | nil =>
      match es with
      | [] | [_] => cases w
      | h :: l :: rest =>
        rw [walk] at w
        cases hc : classify prof h l with
        | none =>
          simp only [hc, Bool.true_and] at w
          split at w
          · rename_i hm; exact ⟨[], h, l, rest, rfl, rfl, hc, hm⟩
          · cases w
        | some b => simp [hc] at w
    | cons b raw ih =>
      match es with
      | [] | [_] => cases w
      | h :: l :: rest =>
        rw [walk] at w
        cases hc : classify prof h l with
        | none => simp [hc] at w
        | some c =>
          simp only [hc, if_true] at w
          obtain ⟨raw', hr, he⟩ := Option.map_eq_some_iff.1 w
          cases he
          obtain ⟨ps, h', l', rest', rfl, hps, hn, hm⟩ := ih hr
          exact ⟨(h, l) :: ps, h', l', rest', rfl, by simp [hc, hps], hn, hm⟩
  · rintro ⟨ps, h, l, rest, rfl, hps, hn, hm⟩
    induction ps generalizing raw with
    | nil =>
      obtain rfl : raw = [] := by simpa using hps.symm
      simp [walk, hn, hm]
    | cons p ps ih =>
      match raw with
      | [] => simp at hps
      | b :: raw =>
        simp only [List.map_cons, List.cons.injEq] at hps
        simp [walk, hps.1, ih hps.2]

/-- The walk reads two entries a kept symbol bit, two for the framing bit and two for the closing marker. -/
theorem walk_length {prof : Profile} {es : List Nat} {raw : List Bool} (h : walk prof false es = some raw) :
    2 * raw.length + 4 ≤ es.length := by
  obtain ⟨a, b, rest, _, rfl, -, h⟩ := walk_false_iff.1 h
  obtain ⟨ps, c, d, more, rfl, hps, -, -⟩ := walk_true_iff.1 h
  have := congrArg List.length hps
  simp only [List.length_map] at this
  have e : (ps.flatMap fun p => [p.1, p.2]).length = 2 * ps.length := flatMap_length_two _ (fun _ => rfl) ps
  simp only [List.length_cons, List.length_append, e]
  omega

/-- Entries after what the walk reads change nothing (R171). -/
theorem walk_append {prof : Profile} {es : List Nat} {raw : List Bool} (extra : List Nat)
    (h : walk prof false es = some raw) : walk prof false (es ++ extra) = some raw := by
  obtain ⟨a, b, rest, c, rfl, hc, h⟩ := walk_false_iff.1 h
  obtain ⟨ps, d, e, more, rfl, hps, hn, hm⟩ := walk_true_iff.1 h
  exact walk_false_iff.2 ⟨a, b, _, c, rfl, hc, walk_true_iff.2 ⟨ps, d, e, more ++ extra, by simp, hps, hn, hm⟩⟩

end Sys2Proof.Machine
end

