-- ==== Sys2Proof/Laws/State.lean ====
section
/-! SUPPORT. What each named update does to each field of the state, all true by unfolding the update once. -/

namespace Sys2Proof.Machine

variable (s : State)

@[simp] theorem State.emitDrive_pt (op : DriveOp) : (s.emitDrive op).pt = s.pt := rfl
@[simp] theorem State.emitDrive_input (op : DriveOp) : (s.emitDrive op).input = s.input := rfl
@[simp] theorem State.emitDrive_txState (op : DriveOp) : (s.emitDrive op).txState = s.txState := rfl
@[simp] theorem State.emitDrive_tx (op : DriveOp) : (s.emitDrive op).tx = s.tx := rfl
@[simp] theorem State.emitDrive_txResult (op : DriveOp) : (s.emitDrive op).txResult = s.txResult := rfl
@[simp] theorem State.emitDrive_txLine (op : DriveOp) : (s.emitDrive op).txLine = s.txLine := rfl
@[simp] theorem State.emitDrive_outstanding (op : DriveOp) : (s.emitDrive op).outstanding = some op := rfl
@[simp] theorem State.emitDrive_rxb (op : DriveOp) : (s.emitDrive op).rxb = s.rxb := rfl
@[simp] theorem State.emitDrive_rxCount (op : DriveOp) : (s.emitDrive op).rxCount = s.rxCount := rfl
@[simp] theorem State.emitDrive_rxLastTs (op : DriveOp) : (s.emitDrive op).rxLastTs = s.rxLastTs := rfl
@[simp] theorem State.emitDrive_driveLog (op : DriveOp) : (s.emitDrive op).driveLog = s.driveLog ++ [op] := rfl
@[simp] theorem State.emitDrive_eventLog (op : DriveOp) : (s.emitDrive op).eventLog = s.eventLog := rfl
@[simp] theorem State.emitDrive_marks (op : DriveOp) : (s.emitDrive op).marks = s.marks := rfl
@[simp] theorem State.emitDrive_freeIdx (op : DriveOp) : (s.emitDrive op).freeIdx = s.freeIdx := rfl

@[simp] theorem State.emitEvent_pt (e : DecodedCode) : (s.emitEvent e).pt = s.pt := rfl
@[simp] theorem State.emitEvent_input (e : DecodedCode) : (s.emitEvent e).input = s.input := rfl
@[simp] theorem State.emitEvent_txState (e : DecodedCode) : (s.emitEvent e).txState = s.txState := rfl
@[simp] theorem State.emitEvent_tx (e : DecodedCode) : (s.emitEvent e).tx = s.tx := rfl
@[simp] theorem State.emitEvent_txResult (e : DecodedCode) : (s.emitEvent e).txResult = s.txResult := rfl
@[simp] theorem State.emitEvent_txLine (e : DecodedCode) : (s.emitEvent e).txLine = s.txLine := rfl
@[simp] theorem State.emitEvent_outstanding (e : DecodedCode) : (s.emitEvent e).outstanding = s.outstanding := rfl
@[simp] theorem State.emitEvent_rxb (e : DecodedCode) : (s.emitEvent e).rxb = s.rxb := rfl
@[simp] theorem State.emitEvent_rxCount (e : DecodedCode) : (s.emitEvent e).rxCount = s.rxCount := rfl
@[simp] theorem State.emitEvent_rxLastTs (e : DecodedCode) : (s.emitEvent e).rxLastTs = s.rxLastTs := rfl
@[simp] theorem State.emitEvent_driveLog (e : DecodedCode) : (s.emitEvent e).driveLog = s.driveLog := rfl
@[simp] theorem State.emitEvent_eventLog (e : DecodedCode) : (s.emitEvent e).eventLog = s.eventLog ++ [e] := rfl
@[simp] theorem State.emitEvent_marks (e : DecodedCode) : (s.emitEvent e).marks = s.marks := rfl
@[simp] theorem State.emitEvent_freeIdx (e : DecodedCode) : (s.emitEvent e).freeIdx = s.freeIdx := rfl

@[simp] theorem State.setResult_pt (r : TxResult) : (s.setResult r).pt = s.pt := rfl
@[simp] theorem State.setResult_input (r : TxResult) : (s.setResult r).input = s.input := rfl
@[simp] theorem State.setResult_txState (r : TxResult) : (s.setResult r).txState = s.txState := rfl
@[simp] theorem State.setResult_tx (r : TxResult) : (s.setResult r).tx = s.tx := rfl
@[simp] theorem State.setResult_txResult (r : TxResult) : (s.setResult r).txResult = r := rfl
@[simp] theorem State.setResult_txLine (r : TxResult) : (s.setResult r).txLine = s.txLine := rfl
@[simp] theorem State.setResult_outstanding (r : TxResult) : (s.setResult r).outstanding = s.outstanding := rfl
@[simp] theorem State.setResult_rxb (r : TxResult) : (s.setResult r).rxb = s.rxb := rfl
@[simp] theorem State.setResult_rxCount (r : TxResult) : (s.setResult r).rxCount = s.rxCount := rfl
@[simp] theorem State.setResult_rxLastTs (r : TxResult) : (s.setResult r).rxLastTs = s.rxLastTs := rfl
@[simp] theorem State.setResult_driveLog (r : TxResult) : (s.setResult r).driveLog = s.driveLog := rfl
@[simp] theorem State.setResult_eventLog (r : TxResult) : (s.setResult r).eventLog = s.eventLog := rfl
@[simp] theorem State.setResult_marks (r : TxResult) : (s.setResult r).marks = s.marks := rfl
@[simp] theorem State.setResult_freeIdx (r : TxResult) : (s.setResult r).freeIdx = s.freeIdx := rfl

@[simp] theorem State.setLine_pt (l : Level) : (s.setLine l).pt = s.pt := rfl
@[simp] theorem State.setLine_input (l : Level) : (s.setLine l).input = s.input := rfl
@[simp] theorem State.setLine_txState (l : Level) : (s.setLine l).txState = s.txState := rfl
@[simp] theorem State.setLine_tx (l : Level) : (s.setLine l).tx = s.tx := rfl
@[simp] theorem State.setLine_txResult (l : Level) : (s.setLine l).txResult = s.txResult := rfl
@[simp] theorem State.setLine_txLine (l : Level) : (s.setLine l).txLine = l := rfl
@[simp] theorem State.setLine_outstanding (l : Level) : (s.setLine l).outstanding = s.outstanding := rfl
@[simp] theorem State.setLine_rxb (l : Level) : (s.setLine l).rxb = s.rxb := rfl
@[simp] theorem State.setLine_rxCount (l : Level) : (s.setLine l).rxCount = s.rxCount := rfl
@[simp] theorem State.setLine_rxLastTs (l : Level) : (s.setLine l).rxLastTs = s.rxLastTs := rfl
@[simp] theorem State.setLine_driveLog (l : Level) : (s.setLine l).driveLog = s.driveLog := rfl
@[simp] theorem State.setLine_eventLog (l : Level) : (s.setLine l).eventLog = s.eventLog := rfl
@[simp] theorem State.setLine_marks (l : Level) : (s.setLine l).marks = s.marks := rfl
@[simp] theorem State.setLine_freeIdx (l : Level) : (s.setLine l).freeIdx = s.freeIdx := rfl

@[simp] theorem State.dropSend_pt : (s.dropSend).pt = s.pt := rfl
@[simp] theorem State.dropSend_input : (s.dropSend).input = s.input := rfl
@[simp] theorem State.dropSend_txState : (s.dropSend).txState = .idle := rfl
@[simp] theorem State.dropSend_tx : (s.dropSend).tx = freeTxRegs s.freeIdx := rfl
@[simp] theorem State.dropSend_txResult : (s.dropSend).txResult = s.txResult := rfl
@[simp] theorem State.dropSend_txLine : (s.dropSend).txLine = s.txLine := rfl
@[simp] theorem State.dropSend_outstanding : (s.dropSend).outstanding = none := rfl
@[simp] theorem State.dropSend_rxb : (s.dropSend).rxb = s.rxb := rfl
@[simp] theorem State.dropSend_rxCount : (s.dropSend).rxCount = s.rxCount := rfl
@[simp] theorem State.dropSend_rxLastTs : (s.dropSend).rxLastTs = s.rxLastTs := rfl
@[simp] theorem State.dropSend_driveLog : (s.dropSend).driveLog = s.driveLog := rfl
@[simp] theorem State.dropSend_eventLog : (s.dropSend).eventLog = s.eventLog := rfl
@[simp] theorem State.dropSend_marks : (s.dropSend).marks = s.marks := rfl
@[simp] theorem State.dropSend_freeIdx : (s.dropSend).freeIdx = s.freeIdx + 7 := rfl

@[simp] theorem State.freeLine_pt : (s.freeLine).pt = s.pt := rfl
@[simp] theorem State.freeLine_input : (s.freeLine).input = s.input := rfl
@[simp] theorem State.freeLine_txState : (s.freeLine).txState = s.txState := rfl
@[simp] theorem State.freeLine_tx : (s.freeLine).tx = s.tx := rfl
@[simp] theorem State.freeLine_txResult : (s.freeLine).txResult = s.txResult := rfl
@[simp] theorem State.freeLine_txLine : (s.freeLine).txLine = Config.freeLevel s.freeIdx := rfl
@[simp] theorem State.freeLine_outstanding : (s.freeLine).outstanding = s.outstanding := rfl
@[simp] theorem State.freeLine_rxb : (s.freeLine).rxb = s.rxb := rfl
@[simp] theorem State.freeLine_rxCount : (s.freeLine).rxCount = s.rxCount := rfl
@[simp] theorem State.freeLine_rxLastTs : (s.freeLine).rxLastTs = s.rxLastTs := rfl
@[simp] theorem State.freeLine_driveLog : (s.freeLine).driveLog = s.driveLog := rfl
@[simp] theorem State.freeLine_eventLog : (s.freeLine).eventLog = s.eventLog := rfl
@[simp] theorem State.freeLine_marks : (s.freeLine).marks = s.marks := rfl
@[simp] theorem State.freeLine_freeIdx : (s.freeLine).freeIdx = s.freeIdx + 1 := rfl

@[simp] theorem State.markOverlap_pt : (s.markOverlap).pt = s.pt := rfl
@[simp] theorem State.markOverlap_input : (s.markOverlap).input = s.input := rfl
@[simp] theorem State.markOverlap_txState : (s.markOverlap).txState = s.txState := rfl
@[simp] theorem State.markOverlap_tx : (s.markOverlap).tx = s.tx := rfl
@[simp] theorem State.markOverlap_txResult : (s.markOverlap).txResult = s.txResult := rfl
@[simp] theorem State.markOverlap_txLine : (s.markOverlap).txLine = s.txLine := rfl
@[simp] theorem State.markOverlap_outstanding : (s.markOverlap).outstanding = s.outstanding := rfl
@[simp] theorem State.markOverlap_rxb : (s.markOverlap).rxb = s.rxb := rfl
@[simp] theorem State.markOverlap_rxCount : (s.markOverlap).rxCount = s.rxCount := rfl
@[simp] theorem State.markOverlap_rxLastTs : (s.markOverlap).rxLastTs = s.rxLastTs := rfl
@[simp] theorem State.markOverlap_driveLog : (s.markOverlap).driveLog = s.driveLog := rfl
@[simp] theorem State.markOverlap_eventLog : (s.markOverlap).eventLog = s.eventLog := rfl
@[simp] theorem State.markOverlap_marks : (s.markOverlap).marks = ⟨true, s.marks.reservedOpcode, s.marks.reservedField⟩ := rfl
@[simp] theorem State.markOverlap_freeIdx : (s.markOverlap).freeIdx = s.freeIdx := rfl

@[simp] theorem State.clearRx_pt : (s.clearRx).pt = s.pt := rfl
@[simp] theorem State.clearRx_input : (s.clearRx).input = s.input := rfl
@[simp] theorem State.clearRx_txState : (s.clearRx).txState = s.txState := rfl
@[simp] theorem State.clearRx_tx : (s.clearRx).tx = s.tx := rfl
@[simp] theorem State.clearRx_txResult : (s.clearRx).txResult = s.txResult := rfl
@[simp] theorem State.clearRx_txLine : (s.clearRx).txLine = s.txLine := rfl
@[simp] theorem State.clearRx_outstanding : (s.clearRx).outstanding = s.outstanding := rfl
@[simp] theorem State.clearRx_rxb : (s.clearRx).rxb = clearedRxb := rfl
@[simp] theorem State.clearRx_rxCount : (s.clearRx).rxCount = 0 := rfl
@[simp] theorem State.clearRx_rxLastTs : (s.clearRx).rxLastTs = s.rxLastTs := rfl
@[simp] theorem State.clearRx_driveLog : (s.clearRx).driveLog = s.driveLog := rfl
@[simp] theorem State.clearRx_eventLog : (s.clearRx).eventLog = s.eventLog := rfl
@[simp] theorem State.clearRx_marks : (s.clearRx).marks = s.marks := rfl
@[simp] theorem State.clearRx_freeIdx : (s.clearRx).freeIdx = s.freeIdx := rfl

@[simp] theorem State.startBuffer_pt (d : Dur) : (s.startBuffer d).pt = s.pt := rfl
@[simp] theorem State.startBuffer_input (d : Dur) : (s.startBuffer d).input = s.input := rfl
@[simp] theorem State.startBuffer_txState (d : Dur) : (s.startBuffer d).txState = s.txState := rfl
@[simp] theorem State.startBuffer_tx (d : Dur) : (s.startBuffer d).tx = s.tx := rfl
@[simp] theorem State.startBuffer_txResult (d : Dur) : (s.startBuffer d).txResult = s.txResult := rfl
@[simp] theorem State.startBuffer_txLine (d : Dur) : (s.startBuffer d).txLine = s.txLine := rfl
@[simp] theorem State.startBuffer_outstanding (d : Dur) : (s.startBuffer d).outstanding = s.outstanding := rfl
@[simp] theorem State.startBuffer_rxb (d : Dur) : (s.startBuffer d).rxb = clearedRxb.set 0 d := rfl
@[simp] theorem State.startBuffer_rxCount (d : Dur) : (s.startBuffer d).rxCount = 1 := rfl
@[simp] theorem State.startBuffer_rxLastTs (d : Dur) : (s.startBuffer d).rxLastTs = s.rxLastTs := rfl
@[simp] theorem State.startBuffer_driveLog (d : Dur) : (s.startBuffer d).driveLog = s.driveLog := rfl
@[simp] theorem State.startBuffer_eventLog (d : Dur) : (s.startBuffer d).eventLog = s.eventLog := rfl
@[simp] theorem State.startBuffer_marks (d : Dur) : (s.startBuffer d).marks = s.marks := rfl
@[simp] theorem State.startBuffer_freeIdx (d : Dur) : (s.startBuffer d).freeIdx = s.freeIdx := rfl

@[simp] theorem State.appendEdge_pt (d : Dur) : (s.appendEdge d).pt = s.pt := rfl
@[simp] theorem State.appendEdge_input (d : Dur) : (s.appendEdge d).input = s.input := rfl
@[simp] theorem State.appendEdge_txState (d : Dur) : (s.appendEdge d).txState = s.txState := rfl
@[simp] theorem State.appendEdge_tx (d : Dur) : (s.appendEdge d).tx = s.tx := rfl
@[simp] theorem State.appendEdge_txResult (d : Dur) : (s.appendEdge d).txResult = s.txResult := rfl
@[simp] theorem State.appendEdge_txLine (d : Dur) : (s.appendEdge d).txLine = s.txLine := rfl
@[simp] theorem State.appendEdge_outstanding (d : Dur) : (s.appendEdge d).outstanding = s.outstanding := rfl
@[simp] theorem State.appendEdge_rxb (d : Dur) : (s.appendEdge d).rxb = s.rxb.setIfInBounds s.rxCount.toNat d := rfl
@[simp] theorem State.appendEdge_rxCount (d : Dur) : (s.appendEdge d).rxCount = s.rxCount + 1 := rfl
@[simp] theorem State.appendEdge_rxLastTs (d : Dur) : (s.appendEdge d).rxLastTs = s.rxLastTs := rfl
@[simp] theorem State.appendEdge_driveLog (d : Dur) : (s.appendEdge d).driveLog = s.driveLog := rfl
@[simp] theorem State.appendEdge_eventLog (d : Dur) : (s.appendEdge d).eventLog = s.eventLog := rfl
@[simp] theorem State.appendEdge_marks (d : Dur) : (s.appendEdge d).marks = s.marks := rfl
@[simp] theorem State.appendEdge_freeIdx (d : Dur) : (s.appendEdge d).freeIdx = s.freeIdx := rfl

@[simp] theorem State.setLastTs_pt (ts : Stamp) : (s.setLastTs ts).pt = s.pt := rfl
@[simp] theorem State.setLastTs_input (ts : Stamp) : (s.setLastTs ts).input = s.input := rfl
@[simp] theorem State.setLastTs_txState (ts : Stamp) : (s.setLastTs ts).txState = s.txState := rfl
@[simp] theorem State.setLastTs_tx (ts : Stamp) : (s.setLastTs ts).tx = s.tx := rfl
@[simp] theorem State.setLastTs_txResult (ts : Stamp) : (s.setLastTs ts).txResult = s.txResult := rfl
@[simp] theorem State.setLastTs_txLine (ts : Stamp) : (s.setLastTs ts).txLine = s.txLine := rfl
@[simp] theorem State.setLastTs_outstanding (ts : Stamp) : (s.setLastTs ts).outstanding = s.outstanding := rfl
@[simp] theorem State.setLastTs_rxb (ts : Stamp) : (s.setLastTs ts).rxb = s.rxb := rfl
@[simp] theorem State.setLastTs_rxCount (ts : Stamp) : (s.setLastTs ts).rxCount = s.rxCount := rfl
@[simp] theorem State.setLastTs_rxLastTs (ts : Stamp) : (s.setLastTs ts).rxLastTs = ts := rfl
@[simp] theorem State.setLastTs_driveLog (ts : Stamp) : (s.setLastTs ts).driveLog = s.driveLog := rfl
@[simp] theorem State.setLastTs_eventLog (ts : Stamp) : (s.setLastTs ts).eventLog = s.eventLog := rfl
@[simp] theorem State.setLastTs_marks (ts : Stamp) : (s.setLastTs ts).marks = s.marks := rfl
@[simp] theorem State.setLastTs_freeIdx (ts : Stamp) : (s.setLastTs ts).freeIdx = s.freeIdx := rfl

@[simp] theorem State.present_pt (w : CmdWord) : (s.present w).pt = s.pt := rfl
@[simp] theorem State.present_input (w : CmdWord) : (s.present w).input = w :: s.input := rfl
@[simp] theorem State.present_txState (w : CmdWord) : (s.present w).txState = s.txState := rfl
@[simp] theorem State.present_tx (w : CmdWord) : (s.present w).tx = s.tx := rfl
@[simp] theorem State.present_txResult (w : CmdWord) : (s.present w).txResult = s.txResult := rfl
@[simp] theorem State.present_txLine (w : CmdWord) : (s.present w).txLine = s.txLine := rfl
@[simp] theorem State.present_outstanding (w : CmdWord) : (s.present w).outstanding = s.outstanding := rfl
@[simp] theorem State.present_rxb (w : CmdWord) : (s.present w).rxb = s.rxb := rfl
@[simp] theorem State.present_rxCount (w : CmdWord) : (s.present w).rxCount = s.rxCount := rfl
@[simp] theorem State.present_rxLastTs (w : CmdWord) : (s.present w).rxLastTs = s.rxLastTs := rfl
@[simp] theorem State.present_driveLog (w : CmdWord) : (s.present w).driveLog = s.driveLog := rfl
@[simp] theorem State.present_eventLog (w : CmdWord) : (s.present w).eventLog = s.eventLog := rfl
@[simp] theorem State.present_marks (w : CmdWord) : (s.present w).marks = s.marks := rfl
@[simp] theorem State.present_freeIdx (w : CmdWord) : (s.present w).freeIdx = s.freeIdx := rfl

@[simp] theorem State.beginSend_pt (regs : TxRegs) : (s.beginSend regs).pt = s.pt := rfl
@[simp] theorem State.beginSend_input (regs : TxRegs) : (s.beginSend regs).input = s.input := rfl
@[simp] theorem State.beginSend_txState (regs : TxRegs) : (s.beginSend regs).txState = .sending := rfl
@[simp] theorem State.beginSend_tx (regs : TxRegs) : (s.beginSend regs).tx = regs := rfl
@[simp] theorem State.beginSend_txResult (regs : TxRegs) : (s.beginSend regs).txResult = .busy := rfl
@[simp] theorem State.beginSend_txLine (regs : TxRegs) : (s.beginSend regs).txLine = s.txLine := rfl
@[simp] theorem State.beginSend_outstanding (regs : TxRegs) : (s.beginSend regs).outstanding = s.outstanding := rfl
@[simp] theorem State.beginSend_rxb (regs : TxRegs) : (s.beginSend regs).rxb = s.rxb := rfl
@[simp] theorem State.beginSend_rxCount (regs : TxRegs) : (s.beginSend regs).rxCount = s.rxCount := rfl
@[simp] theorem State.beginSend_rxLastTs (regs : TxRegs) : (s.beginSend regs).rxLastTs = s.rxLastTs := rfl
@[simp] theorem State.beginSend_driveLog (regs : TxRegs) : (s.beginSend regs).driveLog = s.driveLog := rfl
@[simp] theorem State.beginSend_eventLog (regs : TxRegs) : (s.beginSend regs).eventLog = s.eventLog := rfl
@[simp] theorem State.beginSend_marks (regs : TxRegs) : (s.beginSend regs).marks = s.marks := rfl
@[simp] theorem State.beginSend_freeIdx (regs : TxRegs) : (s.beginSend regs).freeIdx = s.freeIdx := rfl

/-- Raising an error is writing its result. -/
@[simp] theorem State.raise_eq (e : TxError) : s.raise e = s.setResult e.result := rfl
@[simp] theorem TxError.result_invalidProtocol : TxError.invalidProtocol.result = .invalidProtocol := rfl
@[simp] theorem TxError.result_transmitIoFailure : TxError.transmitIoFailure.result = .transmitIoFailure := rfl

@[simp] theorem State.markRefused_pt (r : Reject) : (s.markRefused r).pt = s.pt := by cases r <;> rfl
@[simp] theorem State.markRefused_input (r : Reject) : (s.markRefused r).input = s.input := by cases r <;> rfl
@[simp] theorem State.markRefused_txState (r : Reject) : (s.markRefused r).txState = s.txState := by cases r <;> rfl
@[simp] theorem State.markRefused_tx (r : Reject) : (s.markRefused r).tx = s.tx := by cases r <;> rfl
@[simp] theorem State.markRefused_txResult (r : Reject) : (s.markRefused r).txResult = s.txResult := by cases r <;> rfl
@[simp] theorem State.markRefused_txLine (r : Reject) : (s.markRefused r).txLine = s.txLine := by cases r <;> rfl
@[simp] theorem State.markRefused_outstanding (r : Reject) : (s.markRefused r).outstanding = s.outstanding := by cases r <;> rfl
@[simp] theorem State.markRefused_rxb (r : Reject) : (s.markRefused r).rxb = s.rxb := by cases r <;> rfl
@[simp] theorem State.markRefused_rxCount (r : Reject) : (s.markRefused r).rxCount = s.rxCount := by cases r <;> rfl
@[simp] theorem State.markRefused_rxLastTs (r : Reject) : (s.markRefused r).rxLastTs = s.rxLastTs := by cases r <;> rfl
@[simp] theorem State.markRefused_driveLog (r : Reject) : (s.markRefused r).driveLog = s.driveLog := by cases r <;> rfl
@[simp] theorem State.markRefused_eventLog (r : Reject) : (s.markRefused r).eventLog = s.eventLog := by cases r <;> rfl
@[simp] theorem State.markRefused_freeIdx (r : Reject) : (s.markRefused r).freeIdx = s.freeIdx := by cases r <;> rfl

@[simp] theorem State.markRefused_txOverlap (r : Reject) : (s.markRefused r).marks.txOverlap = s.marks.txOverlap := by
  cases r <;> rfl

end Sys2Proof.Machine
end

