-- ==== Sys2Proof/Laws/Filter.lean ====
section
/-! SUPPORT. Everything RX_EDGE can do, said once (R200 to R210). -/

namespace Sys2Proof.Machine

theorem rxEdge_boundary {ts : Stamp} {s : State} (h : 2000 < (edgeDuration s ts).toNat) :
    rxEdge ts s = ((decodeAtBoundary (s.setLastTs ts)).1.startBuffer (edgeDuration s ts),
      (decodeAtBoundary (s.setLastTs ts)).2) := by
  rw [rxEdge, filterEdge, if_pos (by simpa [quietGapUs] using h)]

theorem rxEdge_overflow {ts : Stamp} {s : State} (h : (edgeDuration s ts).toNat ≤ 2000) (hn : 256 ≤ s.rxCount.toNat) :
    rxEdge ts s = ((s.setLastTs ts).startBuffer (edgeDuration s ts), .overflow) := by
  rw [rxEdge, filterEdge, if_neg (by simp only [quietGapUs]; omega), if_pos (by simpa [maxChanges] using hn)]

theorem rxEdge_append {ts : Stamp} {s : State} (h : (edgeDuration s ts).toNat ≤ 2000) (hn : s.rxCount.toNat < 256) :
    rxEdge ts s = ((s.setLastTs ts).appendEdge (edgeDuration s ts), .appended) := by
  rw [rxEdge, filterEdge, if_neg (by simp only [quietGapUs]; omega),
    if_neg (by simp only [maxChanges, State.setLastTs_rxCount]; omega)]

/-- The receive buffer's capacity as a numeral, for arithmetic (R10). -/
theorem rxCapacity_eq : rxCapacity = 257 := rfl

/-- A buffer started anew holds its one duration and zeros (R207, R208). -/
theorem startBuffer_getElem (s : State) (d : Dur) (k : Fin rxCapacity) :
    (s.startBuffer d).rxb[k] = if k.val = 0 then d else 0 := by
  simp only [State.startBuffer, clearedRxb, Fin.getElem_fin, Vector.getElem_set, eq_comm (a := 0)]
  split
  · rfl
  · simp

/-- An appended duration stands at the old fill level (R209). -/
theorem appendEdge_getElem (s : State) (d : Dur) (k : Fin rxCapacity) :
    (s.appendEdge d).rxb[k] = if k.val = s.rxCount.toNat then d else s.rxb[k] := by
  simp only [State.appendEdge, Fin.getElem_fin, Vector.getElem_setIfInBounds, eq_comm (a := k.val)]

/-- The buffer a decode reads has as many entries as the fill level says, and each is a 32-bit number. -/
theorem entries_length {s : State} (h : s.rxCount.toNat ≤ 256) : s.entries.length = s.rxCount.toNat := by
  simp [State.entries, State.buffer, rxCapacity, maxChanges]; omega

theorem buffer_length {s : State} (h : s.rxCount.toNat ≤ 256) : s.buffer.length = s.rxCount.toNat := by
  rw [← entries_length h, State.entries, List.length_map]

theorem entries_lt {s : State} {e : Nat} (h : e ∈ s.entries) : e < 2 ^ 32 := by
  obtain ⟨d, -, rfl⟩ := List.mem_map.1 h; exact d.isLt

/-- A decode at a boundary changes at most the event log, by at most one event. -/
theorem decodeAtBoundary_state (s : State) :
    (decodeAtBoundary s).1 = s ∨
      ∃ p m, s.decodeBuffer = some (p, m) ∧ noiseOk m.raw = true ∧ (decodeAtBoundary s).1 = s.emitEvent (eventOf s p m) := by
  unfold decodeAtBoundary
  cases h : s.decodeBuffer with
  | none => exact .inl rfl
  | some pm =>
    obtain ⟨p, m⟩ := pm
    cases hn : noiseOk m.raw
    · exact .inl (by simp [hn])
    · exact .inr ⟨p, m, rfl, hn, by simp [hn]⟩

/-- Everything RX_EDGE can do to the state. -/
theorem rxEdge_cases (ts : Stamp) (s : State) :
    (2000 < (edgeDuration s ts).toNat ∧
      (rxEdge ts s).1 = (decodeAtBoundary (s.setLastTs ts)).1.startBuffer (edgeDuration s ts)) ∨
    ((edgeDuration s ts).toNat ≤ 2000 ∧ 256 ≤ s.rxCount.toNat ∧
      (rxEdge ts s).1 = (s.setLastTs ts).startBuffer (edgeDuration s ts)) ∨
    ((edgeDuration s ts).toNat ≤ 2000 ∧ s.rxCount.toNat < 256 ∧
      (rxEdge ts s).1 = (s.setLastTs ts).appendEdge (edgeDuration s ts)) := by
  by_cases h : 2000 < (edgeDuration s ts).toNat
  · exact .inl ⟨h, by rw [rxEdge_boundary h]⟩
  · by_cases hn : 256 ≤ s.rxCount.toNat
    · exact .inr (.inl ⟨by omega, hn, by rw [rxEdge_overflow (by omega) hn]⟩)
    · exact .inr (.inr ⟨by omega, by omega, by rw [rxEdge_append (by omega) (by omega)]⟩)

/-- A dispatch answers a protocol of the list that matches, and no earlier one of the list does (R203). -/
theorem firstMatch_eq_some_iff {es : List Nat} {start : Nat} {ps : List Profile} {p : Nat} {m : Match} :
    firstMatch es start ps = some (p, m) ↔
      ∃ k prof, p = start + k ∧ ps[k]? = some prof ∧ tryDecode es prof = some m ∧
        ∀ j q, j < k → ps[j]? = some q → tryDecode es q = none := by
  induction ps generalizing start with
  | nil => simp [firstMatch]
  | cons q qs ih =>
    rw [firstMatch]
    cases hd : tryDecode es q with
    | some m' =>
      constructor
      · intro h; cases h
        exact ⟨0, q, by simp, rfl, hd, fun j _ hj => absurd hj (by omega)⟩
      · rintro ⟨k, prof, hp, hk, hm, hno⟩
        cases k with
        | zero => cases hk; rw [hd] at hm; cases hm; simp [hp]
        | succ k => rw [hno 0 q (by omega) rfl] at hd; cases hd
    | none =>
      dsimp only
      rw [ih]
      constructor
      · rintro ⟨k, prof, rfl, hk, hm, hno⟩
        refine ⟨k + 1, prof, by omega, hk, hm, fun j r hj hr => ?_⟩
        cases j with
        | zero => cases hr; exact hd
        | succ j => exact hno j r (by omega) hr
      · rintro ⟨k, prof, rfl, hk, hm, hno⟩
        cases k with
        | zero => cases hk; rw [hd] at hm; cases hm
        | succ k => exact ⟨k, prof, by omega, hk, hm, fun j r hj hr => hno (j + 1) r (by omega) hr⟩

/-- A dispatch answers nothing exactly when no protocol of the list matches. -/
theorem firstMatch_eq_none_iff {es : List Nat} {start : Nat} {ps : List Profile} :
    firstMatch es start ps = none ↔ ∀ q ∈ ps, tryDecode es q = none := by
  induction ps generalizing start with
  | nil => simp [firstMatch]
  | cons q qs ih =>
    rw [firstMatch]
    cases hd : tryDecode es q with
    | some m => simp [hd]
    | none => simp [hd, ih]

end Sys2Proof.Machine
end

