-- ==== Sys2Proof/Laws/LineCode.lean ====
section
/-! SUPPORT. Where a stretch of a frame is due: one lemma for pairs and one for symbol groups (R125 to R127). -/

namespace Sys2Proof.Machine

/-- The pair due is the opening sync at op 0, symbol k at op 2 + 2k, or the closing marker at op 4W + 4. -/
theorem pairDue_cases {t : TxRegs} {p : LinePair} (h : pairDue t = some p) :
    (p = .syncOpen ∧ t.op.toNat = 0) ∨
    (∃ k b, p = .sym b ∧ t.op.toNat = 2 + 2 * k ∧ (symbols t.code t.w.toNat)[k]? = some b) ∨
    (p = .closeMark ∧ t.op.toNat = 4 * t.w.toNat + 4) := by
  unfold pairDue at h
  split at h
  · have hl : t.op.toNat / 2 < (framePairs t.code t.w.toNat).length := by
      by_contra hc; rw [List.getElem?_eq_none (by omega)] at h; cases h
    rw [framePairs_length] at hl
    rcases Nat.eq_zero_or_pos (t.op.toNat / 2) with h0 | h0
    · rw [h0] at h; cases h; exact .inl ⟨rfl, by omega⟩
    · by_cases hc : t.op.toNat / 2 = 2 * t.w.toNat + 2
      · rw [hc, framePairs_close] at h; cases h; exact .inr (.inr ⟨rfl, by omega⟩)
      · right; left
        obtain ⟨b, hb⟩ : ∃ b, (symbols t.code t.w.toNat)[t.op.toNat / 2 - 1]? = some b :=
          ⟨_, List.getElem?_eq_getElem (by rw [symbols_length]; omega)⟩
        have := framePairs_sym _ _ _ _ hb
        rw [Nat.sub_add_cancel h0, h] at this
        cases this
        exact ⟨_, b, rfl, by omega, hb⟩
  · cases h

/-- The group due is the framing bit at op 2, or data bit j at op 4 + 4j. -/
theorem groupDue_cases {t : TxRegs} {g : SymbolGroup} (h : groupDue t = some g) :
    (g = .framing ∧ t.op = 2) ∨
    ∃ j, j < t.w.toNat ∧ t.op.toNat = 4 + 4 * j ∧ g = .data (t.code.getLsbD (t.w.toNat - 1 - j)) := by
  unfold groupDue at h
  split at h
  · rename_i h2
    cases h; exact .inl ⟨rfl, BitVec.eq_of_toNat_eq (by simpa using h2)⟩
  · split at h
    · right
      obtain ⟨b, hb, rfl⟩ := Option.map_eq_some_iff.1 h
      have hl : (t.op.toNat - 4) / 4 < t.w.toNat := by
        by_contra hc; rw [List.getElem?_eq_none (by simp; omega)] at hb; cases hb
      rw [dataBits_getElem? _ _ _ hl] at hb
      cases hb
      exact ⟨_, hl, by omega, rfl⟩
    · cases h

end Sys2Proof.Machine
end

