-- ==== Sys2Proof/Laws/PerInstr.lean ====
section
/-! SUPPORT. Statements made per instruction: which instructions have a command word, the opcode it carries, and which
have line bits instead (R70 to R83). -/

namespace Sys2Proof.Laws.Opcode

/-- The opcode an instruction's command word carries (R72, R140); none for a piece of line code. -/
def value : Instr → Option (BitVec 4)
  | .txSend .. => some 0x1
  | .send _ _ _ => some 0x1
  | .drvResp _ => some 0x2
  | .rxEdge _ => some 0x3
  | .reset => some 0xF
  | .lineSyncOpen | .lineSym1 | .lineSym0 | .lineCloseMark | .symbitsData0 | .symbitsData1 | .symbitsFraming => none

/-- An instruction has a command word, with its opcode, or line bits; never both. -/
def Statement (i : Instr) : Prop :=
  (encode i).map opcodeOf = value i ∧ (encode i).isSome = !i.isLineCode ∧ (lineBits i).isSome = i.isLineCode

theorem opcodeOf_ofNat (n k : Nat) (h : n % 16 = k) : opcodeOf (BitVec.ofNat 128 n) = BitVec.ofNat 4 k := by
  apply BitVec.eq_of_toNat_eq
  simp only [opcodeOf, bits, BitVec.extractLsb'_toNat, BitVec.toNat_ofNat, Nat.shiftRight_zero]
  omega

theorem opcodeOf_encodeTxSend (proto : ProtoIdx) (plv blv : Bool) (rep : BitVec 16) (pl : PulseLen) (bl : BitVec 8)
    (code : Code) : opcodeOf (encodeTxSend proto plv blv rep pl bl code) = 0x1 :=
  opcodeOf_ofNat _ 1 (by norm_num; omega)

theorem txSend (proto : ProtoIdx) (plv blv : Bool) (rep : BitVec 16) (pl : PulseLen) (bl : BitVec 8) (code : Code) :
    Statement (.txSend proto plv blv rep pl bl code) :=
  ⟨congrArg some (opcodeOf_encodeTxSend proto plv blv rep pl bl code), rfl, rfl⟩

theorem drvResp (ok : Bool) : Statement (.drvResp ok) :=
  ⟨congrArg some (opcodeOf_ofNat _ 2 (by omega)), rfl, rfl⟩

theorem rxEdge (ts : Stamp) : Statement (.rxEdge ts) :=
  ⟨congrArg some (opcodeOf_ofNat _ 3 (by omega)), rfl, rfl⟩

theorem reset : Statement .reset := ⟨rfl, rfl, rfl⟩

theorem send (code : Code) (proto : ProtoIdx) (rep : BitVec 16) : Statement (.send code proto rep) :=
  ⟨congrArg some (opcodeOf_encodeTxSend proto false false rep 0 0 code), rfl, rfl⟩

theorem lineSyncOpen : Statement .lineSyncOpen := ⟨rfl, rfl, rfl⟩

theorem lineSym1 : Statement .lineSym1 := ⟨rfl, rfl, rfl⟩

theorem lineSym0 : Statement .lineSym0 := ⟨rfl, rfl, rfl⟩

theorem lineCloseMark : Statement .lineCloseMark := ⟨rfl, rfl, rfl⟩

theorem symbitsData0 : Statement .symbitsData0 := ⟨rfl, rfl, rfl⟩

theorem symbitsData1 : Statement .symbitsData1 := ⟨rfl, rfl, rfl⟩

theorem symbitsFraming : Statement .symbitsFraming := ⟨rfl, rfl, rfl⟩

end Sys2Proof.Laws.Opcode
end

