-- ==== Sys2Proof/Laws/Table.lean ====
section
/-! SUPPORT. LOOKUP's spec lemma (R100, R101) and the configuration check's. -/

namespace Sys2Proof.Machine

theorem lookup_eq_some_iff {t : ProtoTable} {i : ProtoIdx} {p : Profile} :
    lookup t i = some p ↔ ∃ k, i.toNat = k + 1 ∧ t.profiles[k]? = some p := by
  unfold lookup
  constructor
  · intro h
    split at h
    · cases h
    · exact ⟨i.toNat - 1, by omega, h⟩
  · rintro ⟨k, hk, hp⟩
    have hlt : k < t.profiles.length := by
      by_contra hc
      rw [List.getElem?_eq_none (by omega)] at hp
      cases hp
    rw [if_neg (by simp only [ProtoTable.nProto]; omega), hk]
    simpa using hp

theorem lookup_isSome_iff {t : ProtoTable} {i : ProtoIdx} : (lookup t i).isSome = true ↔ validIdx t i := by
  unfold lookup validIdx ProtoTable.nProto
  split
  · simp; omega
  · rename_i h
    have hlt : i.toNat - 1 < t.profiles.length := by omega
    rw [List.getElem?_eq_getElem hlt]
    simp; omega

theorem lookup_eq_none_iff {t : ProtoTable} {i : ProtoIdx} : lookup t i = none ↔ ¬validIdx t i := by
  rw [← lookup_isSome_iff, Bool.not_eq_true, Option.isSome_eq_false_iff, Option.isNone_iff_eq_none]

theorem checkProfile_eq_some_iff {p : RawProfile} {q : Profile} :
    checkProfile p = some q ↔ q.toRawProfile = p := by
  unfold checkProfile
  constructor
  · intro h; split at h <;> simp_all
    subst h; rfl
  · rintro rfl; rw [dif_pos q.legal]

end Sys2Proof.Machine
end

