-- ==== Sys2Proof/Laws/Transmit.lean ====
section
/-! SUPPORT. Everything TX_SEND and DRV_RESP can do, said once (R130, R136). -/

namespace Sys2Proof.Machine

@[simp] theorem nextPosition_r (n : Nat) (t : TxRegs) : (nextPosition n t).r = t.r := by
  unfold nextPosition; split <;> rfl

@[simp] theorem nextPosition_proto (n : Nat) (t : TxRegs) : (nextPosition n t).proto = t.proto := by
  unfold nextPosition; split <;> rfl

@[simp] theorem nextPosition_code (n : Nat) (t : TxRegs) : (nextPosition n t).code = t.code := by
  unfold nextPosition; split <;> rfl

@[simp] theorem nextPosition_w (n : Nat) (t : TxRegs) : (nextPosition n t).w = t.w := by
  unfold nextPosition; split <;> rfl

@[simp] theorem nextPosition_pl (n : Nat) (t : TxRegs) : (nextPosition n t).pl = t.pl := by
  unfold nextPosition; split <;> rfl

/-- Inside a frame the position moves by one op. -/
theorem nextPosition_mid {n : Nat} {t : TxRegs} (hn : n ≤ 1026) (h : t.op.toNat + 1 < n) :
    nextPosition n t = { t with op := t.op + 1 } := by
  have : (t.op + 1).toNat = t.op.toNat + 1 := by
    rw [BitVec.toNat_add]; simp; omega
  rw [nextPosition, if_neg (by omega)]

/-- At a frame's last op the position moves to the start of the next repetition. -/
theorem nextPosition_last {n : Nat} {t : TxRegs} (hn : n ≤ 1026) (h : t.op.toNat + 1 = n) :
    nextPosition n t = { t with op := 0, rep := t.rep + 1 } := by
  have : (t.op + 1).toNat = t.op.toNat + 1 := by
    rw [BitVec.toNat_add]; simp; omega
  rw [nextPosition, if_pos (by omega)]

theorem op_succ_toNat {x : BitVec 11} (h : x.toNat + 1 ≤ 1026) : (x + 1).toNat = x.toNat + 1 := by
  rw [BitVec.toNat_add]; simp; omega

theorem currentFrame_eq_some_iff {s : State} {f : List DriveOp} :
    s.currentFrame = some f ↔
      ∃ prof, lookup s.pt s.tx.proto = some prof ∧ frame s.tx.code s.tx.w.toNat prof s.tx.pl = f := by
  simp [State.currentFrame]

/-- The frame of a send in progress has at most 1026 ops, which 11 bits count. -/
theorem currentFrame_length {s : State} {f : List DriveOp} (h : s.currentFrame = some f) :
    f.length = 4 * s.tx.w.toNat + 6 ∧ f.length ≤ 1026 := by
  obtain ⟨prof, -, rfl⟩ := currentFrame_eq_some_iff.1 h
  have := s.tx.w.isLt
  rw [frame_length]; omega

/-- Everything an answered drive request can do: end the send, or move on and present the op at the new position. -/
theorem answerOk_cases {s t : State} (h : answerOk s = .next t) :
    ∃ f cur, s.currentFrame = some f ∧ f[s.tx.op.toNat]? = some cur ∧
      (((nextPosition f.length s.tx).rep = s.tx.r ∧ t = (s.setLine cur.level).endSend .success) ∨
       ((nextPosition f.length s.tx).rep ≠ s.tx.r ∧ ∃ nxt, f[(nextPosition f.length s.tx).op.toNat]? = some nxt ∧
          t = ({ s.setLine cur.level with tx := nextPosition f.length s.tx } : State).emitDrive nxt)) := by
  unfold answerOk at h
  split at h
  · cases h
  · rename_i f hf
    split at h
    · cases h
    · rename_i cur hcur
      refine ⟨f, cur, hf, hcur, ?_⟩
      simp only [advance, nextPosition_r, State.setLine_tx] at h
      split at h
      · rename_i he; cases h; exact .inl ⟨he, rfl⟩
      · rename_i he
        split at h
        · cases h
        · rename_i nxt hn; cases h; exact .inr ⟨he, nxt, hn, rfl⟩

/-- The answer to the last op of a send: the send is over. -/
theorem answerOk_end {s : State} {f : List DriveOp} {cur : DriveOp} (hf : s.currentFrame = some f)
    (hc : f[s.tx.op.toNat]? = some cur) (hr : (nextPosition f.length s.tx).rep = s.tx.r) :
    answerOk s = .next ((s.setLine cur.level).endSend .success) := by
  simp [answerOk, hf, hc, advance, hr]

/-- The answer to any other op: the op at the new position is presented. -/
theorem answerOk_advance {s : State} {f : List DriveOp} {cur nxt : DriveOp} (hf : s.currentFrame = some f)
    (hc : f[s.tx.op.toNat]? = some cur) (hr : (nextPosition f.length s.tx).rep ≠ s.tx.r)
    (hn : f[(nextPosition f.length s.tx).op.toNat]? = some nxt) :
    answerOk s = .next (({ s.setLine cur.level with tx := nextPosition f.length s.tx } : State).emitDrive nxt) := by
  simp [answerOk, hf, hc, advance, hr, hn]

/-- An answered drive request never stops by a refusal. -/
theorem answerOk_ne_refused (s : State) (r : Refusal) : answerOk s ≠ .refused r := by
  unfold answerOk advance
  intro h
  split at h
  · cases h
  · split at h
    · cases h
    · dsimp only at h
      split at h
      · cases h
      · split at h <;> cases h

/-- Everything TX_SEND can do (R130): it always answers a next state. -/
theorem transmit_cases (proto : ProtoIdx) (plv blv : Bool) (rep : BitVec 16) (pl : PulseLen) (bl : BitVec 8) (code : Code)
    (s : State) :
    (s.txState = .sending ∧ transmit proto plv blv rep pl bl code s = .next s.markOverlap) ∨
    (s.txState = .idle ∧ lookup s.pt proto = none ∧
      transmit proto plv blv rep pl bl code s = .next (s.setResult .invalidProtocol)) ∨
    (s.txState = .idle ∧ (∃ prof, lookup s.pt proto = some prof) ∧ rep = 0 ∧
      transmit proto plv blv rep pl bl code s = .next (s.setResult .success)) ∨
    (s.txState = .idle ∧ rep ≠ 0 ∧ ∃ prof, lookup s.pt proto = some prof ∧
      transmit proto plv blv rep pl bl code s =
        .next ((s.beginSend (sendRegs prof proto plv blv rep pl bl code)).emitDrive
          ⟨.H, unitDur prof.syncHigh (pulseInEffect prof plv pl)⟩)) := by
  unfold transmit
  cases hs : s.txState
  · cases hl : lookup s.pt proto with
    | none => simp
    | some prof =>
      by_cases hr : rep = 0
      · exact .inr (.inr (.inl ⟨rfl, ⟨prof, rfl⟩, hr, by rw [if_neg nofun]; dsimp only; rw [if_pos hr]⟩))
      · exact .inr (.inr (.inr ⟨rfl, hr, prof, rfl, by rw [if_neg nofun]; dsimp only; rw [if_neg hr]⟩))
  · exact .inl ⟨rfl, if_pos rfl⟩

/-- The frame of a send whose profile exists. -/
theorem currentFrame_of_lookup {s : State} {prof : Profile} (h : lookup s.pt s.tx.proto = some prof) :
    s.currentFrame = some (frame s.tx.code s.tx.w.toNat prof s.tx.pl) :=
  currentFrame_eq_some_iff.2 ⟨prof, h, rfl⟩

theorem andThen_eq_next {a : Answer} {f : State → Answer} {t : State} :
    andThen a f = .next t ↔ ∃ u, a = .next u ∧ f u = .next t := by
  cases a <;> simp [andThen]

/-- What an answered drive request leaves: the table, the words waiting, the receive state, the events and the marks. -/
theorem answerOk_keeps {s t : State} (h : answerOk s = .next t) :
    t.pt = s.pt ∧ t.input = s.input ∧ t.rxb = s.rxb ∧ t.rxCount = s.rxCount ∧ t.rxLastTs = s.rxLastTs ∧
      t.eventLog = s.eventLog ∧ t.marks = s.marks := by
  obtain ⟨f, cur, -, -, ⟨-, rfl⟩ | ⟨-, nxt, -, rfl⟩⟩ := answerOk_cases h <;> simp [State.endSend]

theorem answersOk_keeps {n : Nat} {s t : State} (h : answersOk n s = .next t) :
    t.pt = s.pt ∧ t.input = s.input ∧ t.rxb = s.rxb ∧ t.rxCount = s.rxCount ∧ t.rxLastTs = s.rxLastTs ∧
      t.eventLog = s.eventLog ∧ t.marks = s.marks := by
  induction n generalizing s with
  | zero => cases h; simp
  | succ n ih =>
    obtain ⟨u, h1, h2⟩ := andThen_eq_next.1 h
    have a := answerOk_keeps h1
    have b := ih h2
    simp_all

/-- Answers in turn, taken apart. -/
theorem answersOk_add (m n : Nat) (s : State) : answersOk (m + n) s = andThen (answersOk m s) (answersOk n) := by
  induction m generalizing s with
  | zero => rw [Nat.zero_add]; rfl
  | succ m ih =>
    rw [Nat.succ_add, answersOk, answersOk]
    cases answerOk s <;> simp [andThen, ih]

/-- What TX_SEND leaves: the table, the words waiting, the receive state and the events. -/
theorem transmit_keeps {proto : ProtoIdx} {plv blv : Bool} {rep : BitVec 16} {pl : PulseLen} {bl : BitVec 8} {code : Code}
    {s t : State} (h : transmit proto plv blv rep pl bl code s = .next t) :
    t.pt = s.pt ∧ t.input = s.input ∧ t.rxb = s.rxb ∧ t.rxCount = s.rxCount ∧ t.rxLastTs = s.rxLastTs ∧
      t.eventLog = s.eventLog := by
  obtain ⟨-, e⟩ | ⟨-, -, e⟩ | ⟨-, -, -, e⟩ | ⟨-, -, prof, -, e⟩ := transmit_cases proto plv blv rep pl bl code s <;>
  rw [e] at h <;> cases h <;> simp

end Sys2Proof.Machine
end

