-- ==== Sys2Proof/Laws/Step.lean ====
section
/-! SUPPORT. Everything a step can do: keep the state with no word presented, run the decoded instruction, or mark a
refusal (R75, R258). -/

namespace Sys2Proof.Machine

theorem step_cases {s : State} {o : Answer} (h : step s = o) :
    (s.input = [] ∧ o = .next s) ∨
    ∃ w ws, s.input = w :: ws ∧
      ((∃ i, decode w = .instr i ∧ o = exec i { s with input := ws }) ∨
       (∃ r, decode w = .rejected r ∧ o = .next (State.markRefused { s with input := ws } r))) := by
  unfold step State.takeWord at h
  cases hi : s.input with
  | nil => simp [hi] at h; exact .inl ⟨rfl, h.symm⟩
  | cons w ws =>
    right
    refine ⟨w, ws, rfl, ?_⟩
    simp only [hi] at h
    cases hd : decode w with
    | instr i => simp [hd] at h; exact .inl ⟨i, rfl, h.symm⟩
    | rejected r => simp [hd] at h; exact .inr ⟨r, rfl, h.symm⟩

end Sys2Proof.Machine
end

