-- ==== Sys2Proof/Machine/Assembler.lean ====
section
/-! DEFINITION. The textual syntax of R89, from a line's characters to the instruction it spells. It touches no state of
the machine. Log entry 24. -/

namespace Sys2Proof.Machine

/-- The keys of R89's fields. -/
inductive AsmKey where
  | code
  | proto
  | rep
  | pl
  | bl
  | ts
  deriving DecidableEq, Repr

/-- A key as it is written. -/
def asmKey (cs : List Char) : Option AsmKey :=
  if cs = ['c', 'o', 'd', 'e'] then some .code
  else if cs = ['p', 'r', 'o', 't', 'o'] then some .proto
  else if cs = ['r', 'e', 'p'] then some .rep
  else if cs = ['p', 'l'] then some .pl
  else if cs = ['b', 'l'] then some .bl
  else if cs = ['t', 's'] then some .ts
  else none

/-- The words of a line: what stands between spaces and commas. -/
def asmWords (cs : List Char) : List (List Char) :=
  (cs.splitBy (fun a b => (a != ' ' && a != ',') && (b != ' ' && b != ','))).filter
    fun w => w != [' '] && w != [',']

/-- The value of a digit, hexadecimal letters included. -/
def asmDigit (c : Char) : Option Nat :=
  if '0' ≤ c ∧ c ≤ '9' then some (c.toNat - 48)
  else if 'a' ≤ c ∧ c ≤ 'f' then some (c.toNat - 87)
  else if 'A' ≤ c ∧ c ≤ 'F' then some (c.toNat - 55)
  else none

/-- Digits in a base, after the value read so far. -/
def asmDigits (base acc : Nat) : List Char → Option Nat
  | [] => some acc
  | c :: cs =>
    match asmDigit c with
    | some d => if d < base then asmDigits base (base * acc + d) cs else none
    | none => none

/-- A number: decimal, or hexadecimal with 0x (R89). -/
def asmNumber : List Char → Option Nat
  | [] => none
  | '0' :: 'x' :: c :: cs => asmDigits 16 0 (c :: cs)
  | c :: cs => asmDigits 10 0 (c :: cs)

/-- A number that fits its field (R71). -/
def asmFit (w n : Nat) : Option (BitVec w) := if n < 2 ^ w then some (BitVec.ofNat w n) else none

/-- A number of a field's width. -/
def asmOperand (w : Nat) (cs : List Char) : Option (BitVec w) := (asmNumber cs).bind (asmFit w)

/-- A field `key=value`. -/
def asmField (cs : List Char) : Option (AsmKey × Nat) :=
  match cs.span (· != '=') with
  | (k, _ :: v) =>
    match asmKey k, asmNumber v with
    | some k, some n => some (k, n)
    | _, _ => none
  | (_, []) => none

/-- The fields of a line, in any order (R89), each key at most once. -/
def asmFields : List (List Char) → Option (List (AsmKey × Nat))
  | [] => some []
  | w :: ws =>
    match asmField w, asmFields ws with
    | some f, some fs => if (fs.map (·.1)).contains f.1 then none else some (f :: fs)
    | _, _ => none

/-- A field that must stand in the line. -/
def asmNeed (fs : List (AsmKey × Nat)) (k : AsmKey) (w : Nat) : Option (BitVec w) := (fs.lookup k).bind (asmFit w)

/-- A field that may stand in the line: whether it does, and its value, 0 where it does not. -/
def asmMay (fs : List (AsmKey × Nat)) (k : AsmKey) (w : Nat) : Option (Bool × BitVec w) :=
  match fs.lookup k with
  | none => some (false, 0)
  | some n => (asmFit w n).map fun v => (true, v)

/-- `TX_SEND code=<n>, proto=<i>, rep=<r> [, pl=<p>] [, bl=<b>]` (R89): a `pl=` sets PLV, a `bl=` sets BLV. -/
def asmTxSend (args : List (List Char)) : Option Instr :=
  (asmFields args).bind fun fs =>
    if (fs.map (·.1)).contains .ts then none
    else
      match asmNeed fs .code 64, asmNeed fs .proto 8, asmNeed fs .rep 16, asmMay fs .pl 24, asmMay fs .bl 8 with
      | some code, some proto, some rep, some pl, some bl => some (.txSend proto pl.1 bl.1 rep pl.2 bl.2 code)
      | _, _, _, _, _ => none

/-- `RX_EDGE ts=<t>` (R89). -/
def asmRxEdge (args : List (List Char)) : Option Instr :=
  match asmFields args with
  | some [(.ts, n)] => (asmFit 32 n).map .rxEdge
  | _ => none

/-- `SEND code, proto, rep` (R89, R140). -/
def asmSend : List (List Char) → Option Instr
  | [code, proto, rep] =>
    match asmOperand 64 code, asmOperand 8 proto, asmOperand 16 rep with
    | some code, some proto, some rep => some (.send code proto rep)
    | _, _, _ => none
  | _ => none

/-- `DRV_RESP ok` and `DRV_RESP fail` (R89). -/
def asmDrvResp (args : List (List Char)) : Option Instr :=
  if args = [['o', 'k']] then some (.drvResp true)
  else if args = [['f', 'a', 'i', 'l']] then some (.drvResp false)
  else none

/-- The instruction a line spells (R89), `none` where it spells none. -/
def assemble (line : List Char) : Option Instr :=
  match asmWords line with
  | m :: args =>
    if m = ['T', 'X', '_', 'S', 'E', 'N', 'D'] then asmTxSend args
    else if m = ['D', 'R', 'V', '_', 'R', 'E', 'S', 'P'] then asmDrvResp args
    else if m = ['R', 'X', '_', 'E', 'D', 'G', 'E'] then asmRxEdge args
    else if m = ['S', 'E', 'N', 'D'] then asmSend args
    else if m = ['R', 'E', 'S', 'E', 'T'] ∧ args = [] then some .reset
    else none
  | [] => none

end Sys2Proof.Machine
end

