-- ==== Sys2Proof/Tests/Slice0.lean ====
section
/-! SUPPORT. Tests on the worked vectors of 95_test_vectors.md (each named in its comment), the smoke tests of
well-formedness, and for every obligation with hypotheses a witness that meets them all together. -/

namespace Sys2Proof.Tests

open Sys2Proof Sys2Proof.Machine

set_option Elab.async false

/-! ## The test configuration (95_test_vectors.md section 2) -/

def tp1 : Profile := ⟨⟨100, 10, 30, 1, 3, 3, 1⟩, by decide⟩
def tp2 : Profile := ⟨⟨100, 21, 7, 3, 9, 9, 3⟩, by decide⟩
def tp3 : Profile := ⟨⟨200, 1, 10, 1, 5, 1, 1⟩, by decide⟩
def tp4 : Profile := ⟨⟨100, 10, 30, 2, 2, 2, 2⟩, by decide⟩
/-- The profile of the nearest-match vectors. -/
def tpNear : Profile := ⟨⟨100, 10, 30, 10, 10, 11, 11⟩, by decide⟩

def table : ProtoTable := ⟨[tp1, tp2, tp3, tp4, tp1, tp2], by decide, by decide⟩

/-- Power-on with the test table. -/
def start : State := State.init table

/-- A send of code 1 at width 1 under TP1 (V-TX-1), two frames, standing at a position. -/
def sendingAt (rep : BitVec 16) (op : BitVec 11) (out : DriveOp) : State :=
  { start with
    txState := .sending, txResult := .busy, tx := ⟨1, 1, 1, 100, 2, rep, op⟩, outstanding := some out,
    driveLog := [out] }

/-- A receiver with a fill level, every entry before it 100 µs, and a last timestamp of 10000. -/
def receiving (n : Nat) : State :=
  { start with
    rxb := Vector.ofFn fun k => if k.val < n then 100 else 0, rxCount := BitVec.ofNat 9 n, rxLastTs := 10000 }

/-- A receiver that holds the given durations. -/
def holding (ds : List Nat) : State :=
  { start with
    rxb := Vector.ofFn fun k => BitVec.ofNat 32 (ds.getD k.val 0), rxCount := BitVec.ofNat 9 ds.length }

/-- Two fields or more of a next state, looked at by `f`; `none` where there is no next state. -/
def seen {α : Type} (f : State → α) : Answer → Option α
  | .next s => some (f s)
  | .fault _ => none
  | .refused _ => none

/-- The durations of a frame. -/
def durations (code : Code) (w : Nat) (prof : Profile) : List Nat :=
  (frame code w prof prof.pulseLength).map fun op => op.dur.toNat

/-- Program P3's buffer: FRAME(0x1ABCD, 17, TP2, 100), the marker jittered to 1900. -/
def jittered (code : Code) (w : Nat) : List Nat := (durations code w tp2).take (4 * w + 4) ++ [1900, 1900]

/-! ## Well-formedness -/

theorem test_wellFormed_refuses_pseudo : (Instr.send 5 1 1).wellFormed = false := by decide
theorem test_wellFormed_refuses_line_code :
    [Instr.lineSyncOpen, .lineSym1, .lineSym0, .lineCloseMark, .symbitsData0, .symbitsData1, .symbitsFraming].all
      (fun i => !i.wellFormed) = true := by decide
theorem test_wellFormed_takes_commands :
    [Instr.txSend 0 false false 0 0 0xFF 5, .drvResp false, .rxEdge 0, .reset].all Instr.wellFormed = true := by decide

/-! ## Decoding (V-ENC-1 to V-ENC-16) -/

theorem test_decode_txSend :
    decode 0x00000000000000010100000000022011 = .instr (.txSend 1 false true 2 0 1 1) ∧
    decode 0x00000000000000000200000000012021 = .instr (.txSend 2 false true 1 0 2 0) ∧
    decode 0x00000000000012340000000000010071 = .instr (.txSend 7 false false 1 0 0 0x1234) ∧
    decode 0x00000000000000A50000015E00031011 = .instr (.txSend 1 true false 3 350 0 0xA5) ∧
    decode 0xFFFFFFFFFFFFFFFFFF00000000000001 = .instr (.txSend 0 false false 0 0 0xFF 0xFFFFFFFFFFFFFFFF) := by decide
theorem test_decode_send_word :
    decode 0x00000000000000050000000000010011 = .instr (.txSend 1 false false 1 0 0 5) ∧
    encode (.send 5 1 1) = some 0x00000000000000050000000000010011 := by decide
theorem test_decode_drvResp :
    decode 0x12 = .instr (.drvResp true) ∧ decode 0x2 = .instr (.drvResp false) := by decide
theorem test_decode_rxEdge : decode 0x0000000000000000000003E800000003 = .instr (.rxEdge 1000) := by decide
theorem test_decode_reset : decode 0xF = .instr .reset := by decide
theorem test_decode_reserved_opcode :
    decode 0x0 = .rejected .reservedOpcode ∧ decode 0x7 = .rejected .reservedOpcode ∧
    decode 0x4 = .rejected .reservedOpcode ∧ decode 0xE = .rejected .reservedOpcode := by decide
theorem test_decode_reserved_field :
    decode 0x4011 = .rejected .reservedField ∧ decode 0x32 = .rejected .reservedField ∧
    decode 0x0000000000000001000003E800000003 = .rejected .reservedField ∧ decode 0x1F = .rejected .reservedField := by
  decide
/-- Opcode first: every bit of an undefined opcode's word may be set (R90). -/
theorem test_decode_opcode_first : decode 0xFFFFFFFFFFFFFFFFFFFFFFFFFFFFFFF7 = .rejected .reservedOpcode := by decide
/-- V-ENC-8 on a byte path (R78), and a word cut short. -/
theorem test_decode_bytes :
    bytesOfWord 0x0000000000000000000003E800000003 = [3, 0, 0, 0, 0xE8, 3, 0, 0, 0, 0, 0, 0, 0, 0, 0, 0] ∧
    decodeBytes [3, 0, 0, 0, 0xE8, 3, 0, 0, 0, 0, 0, 0, 0, 0, 0, 0, 7] = (.instr (.rxEdge 1000), [7]) ∧
    decodeBytes [0xF, 0, 0] = (.rejected .incompleteWord, [0xF, 0, 0]) := by decide
theorem test_decodeTableWord :
    decodeTableWord 128 0x00000000000000010100000000022011 = some (.txSend 1 false true 2 0 1 1) ∧
    decodeTableWord 8 0x12 = some (.drvResp true) ∧ decodeTableWord 128 0x7 = none := by decide
/-- The opcode table's encodings of the line-code rows: H is 1, L is 0 (R79 to R83). -/
theorem test_line_bits :
    lineBits .lineSyncOpen = some [true, false] ∧ lineBits .lineSym1 = some [true, false] ∧
    lineBits .lineSym0 = some [true, false] ∧ lineBits .lineCloseMark = some [true, true] ∧
    lineBits .symbitsData0 = some [false, true] ∧ lineBits .symbitsData1 = some [true, false] ∧
    lineBits .symbitsFraming = some [true] := by decide
/-- R84: level above duration. -/
theorem test_driveRecord : driveRecord ⟨.H, 1000⟩ = 0x1000003E8 ∧ driveRecord ⟨.L, 3000⟩ = 0x000000BB8 := by decide

/-! ## Text (R89) -/

theorem test_assemble_txSend :
    assemble "TX_SEND code=0xA5, proto=1, rep=3, pl=350".toList = some (.txSend 1 true false 3 350 0 0xA5) := by
  decide +kernel
theorem test_assemble_send : assemble "SEND 5, 1, 1".toList = some (.send 5 1 1) := by decide +kernel
theorem test_assemble_others :
    assemble "DRV_RESP fail".toList = some (.drvResp false) ∧ assemble "RX_EDGE ts=1000".toList = some (.rxEdge 1000) ∧
    assemble "RESET".toList = some .reset ∧ assemble "TX_SEND proto=256, code=1, rep=1".toList = none := by
  decide +kernel

/-! ## Parts of the machine -/

/-- V-LK-1 to V-LK-5. -/
theorem test_lookup :
    lookup table 0 = none ∧ lookup table 1 = some tp1 ∧ lookup table 6 = some tp2 ∧ lookup table 7 = none ∧
    lookup table 255 = none := by decide
/-- V-TX-3, V-TX-5 to V-TX-8, V-TX-10 to V-TX-12. -/
theorem test_widths :
    [0, 16777216, 16777217, 4294967295, 4294967296, 18446744073709551615].map (fun c => dataWidth c false 0) =
      [24, 25, 32, 32, 33, 64] ∧ dataWidth 5 true 0 = 3 ∧ dataWidth 0 true 0 = 1 := by decide
/-- V-TX-1. -/
theorem test_frame_one :
    frame 1 1 tp1 100 =
      [⟨.H, 1000⟩, ⟨.L, 3000⟩, ⟨.H, 300⟩, ⟨.L, 100⟩, ⟨.H, 300⟩, ⟨.L, 100⟩, ⟨.H, 100⟩, ⟨.L, 300⟩, ⟨.H, 1000⟩,
        ⟨.H, 1000⟩] := by decide
/-- V-TX-2. -/
theorem test_frame_two :
    frame 0 2 tp2 100 =
      [⟨.H, 2100⟩, ⟨.L, 700⟩, ⟨.H, 900⟩, ⟨.L, 300⟩, ⟨.H, 300⟩, ⟨.L, 900⟩, ⟨.H, 900⟩, ⟨.L, 300⟩, ⟨.H, 300⟩, ⟨.L, 900⟩,
        ⟨.H, 900⟩, ⟨.L, 300⟩, ⟨.H, 2100⟩, ⟨.H, 2100⟩] := by decide
/-- V-W-1 to V-W-8. -/
theorem test_within :
    [(420, 350), (421, 350), (280, 350), (279, 350), (1200, 1000), (1201, 1000), (0, 1), (1, 1)].map
      (fun p => within p.1 p.2) = [true, false, true, false, true, false, false, true] := by decide
/-- V-NEAR-1 to V-NEAR-7. -/
theorem test_classify :
    [(1050, 1050), (1000, 1100), (1100, 1060), (900, 900), (1200, 1200), (1210, 1000), (700, 700)].map
      (fun p => classify tpNear p.1 p.2) =
      [some false, some false, some true, some false, some true, some true, none] := by decide
/-- V-NZ-1 to V-NZ-7. -/
theorem test_noise :
    [0x555555555555, 0xFFFFFFFF, 0x1FFFFFFFF, 0x100000001, 0x155566, 0, 0x2999AA5A6].map noiseOk =
      [true, false, true, false, false, false, true] := by decide +kernel
/-- V-DEC-4, V-DEC-9, V-DEC-10. -/
theorem test_decode_frames :
    tryDecode (durations 16777217 32 tp1) tp1 = some ⟨16777217, 32, 100, 0x5556555555555556, 64⟩ ∧
    tryDecode (durations 0 10 tp1) tp1 = none ∧
    tryDecode (durations 5 11 tp1) tp1 = some ⟨5, 11, 100, 0x155566, 22⟩ := by decide +kernel
/-- V-TOL-1, V-TOL-3. -/
theorem test_decode_tolerance :
    tryDecode ((durations 0 24 tp1).map (· * 6 / 5)) tp1 = some ⟨0, 24, 120, 0x555555555555, 48⟩ ∧
    tryDecode ((durations 0 24 tp1).map (· * 6 / 5 + 1)) tp1 = none := by decide +kernel
/-- V-DEC-13 to V-DEC-16. -/
theorem test_decode_corners :
    tryDecode (((durations 0 24 tp1).set 4 300).set 5 100) tp1 = none ∧
    tryDecode ((durations 0 24 tp1).take 4 ++ (durations 0 24 tp1).drop 6) tp1 = none ∧
    tryDecode (durations 0 24 tp1 ++ [5, 5, 5]) tp1 = some ⟨0, 24, 100, 0x555555555555, 48⟩ ∧
    tryDecode ((durations 0 24 tp1).take 100) tp1 = none := by decide +kernel

/-! ## One step per instruction -/

/-- P1's first word, through `step`. -/
theorem test_step_txSend :
    seen (fun t => (t.txState, t.txResult, t.tx.w, t.outstanding, t.input))
      (step { start with input := [0x00000000000000010100000000022011, 0x12] }) =
      some (.sending, .busy, 1, some ⟨.H, 1000⟩, [0x12]) := by decide
/-- V-TX-15: the index is checked before REPEAT. -/
theorem test_txSend_index_first :
    seen (fun t => (t.txState, t.txResult, t.driveLog)) (exec (.txSend 0 false false 0 0 0xFF 5) start) =
      some (.idle, .invalidProtocol, []) := by decide
/-- P1: the 10th DRV_RESP presents op 0 of frame 2. -/
theorem test_drvResp_next_frame :
    seen (fun t => (t.txLine, t.tx.rep, t.tx.op, t.outstanding)) (exec (.drvResp true) (sendingAt 0 9 ⟨.H, 1000⟩)) =
      some (.H, 1, 0, some ⟨.H, 1000⟩) := by decide
/-- P2: a failure ends the send, and nothing more is presented. -/
theorem test_drvResp_fail :
    seen (fun t => (t.txState, t.txResult, t.outstanding, t.driveLog)) (exec (.drvResp false) (sendingAt 0 3 ⟨.L, 100⟩)) =
      some (.idle, .transmitIoFailure, none, [⟨.L, 100⟩]) := by decide
/-- V-RX-5: the duration wraps. -/
theorem test_rxEdge_wraps :
    seen (fun t => (t.rxb[0], t.rxCount, t.rxLastTs)) (exec (.rxEdge 0x100) { start with rxLastTs := 0xFFFFFF00 }) =
      some (512, 1, 0x100) := by decide +kernel
/-- V-RX-6: overflow. -/
theorem test_rxEdge_overflow :
    seen (fun t => (t.rxb[0], t.rxb[1], t.rxCount)) (exec (.rxEdge 10100) (receiving 256)) = some (100, 0, 1) := by
  decide +kernel
/-- V-RS-1: the drive log stays, the request is withdrawn. -/
theorem test_reset_transmit :
    seen (fun t => (t.txState, t.txResult, t.txLine, t.outstanding, t.driveLog)) (exec .reset (sendingAt 0 3 ⟨.L, 100⟩)) =
      some (.idle, .none, .L, none, [⟨.L, 100⟩]) := by decide
/-- V-RS-2 and V-RS-3: the receiver is cleared, a mark stays. -/
theorem test_reset_receive :
    seen (fun t => (t.rxCount, t.rxLastTs, t.rxb[73], t.marks.txOverlap))
      (exec .reset { receiving 74 with marks := ⟨true, false, false⟩ }) = some (0, 0, 0, true) := by decide +kernel
/-- P5's send after the reset: W = 24, (H, 1000). -/
theorem test_send : seen (fun t => (t.txResult, t.tx.w, t.tx.pl, t.outstanding)) (exec (.send 5 1 1) start) =
    some (.busy, 24, 100, some ⟨.H, 1000⟩) := by decide
/-- V-TX-1's ops 0 and 1 (log entry 15). -/
theorem test_lineSyncOpen :
    seen (fun t => (t.txLine, t.tx.op, t.driveLog)) (exec .lineSyncOpen (sendingAt 0 0 ⟨.H, 1000⟩)) =
      some (.L, 2, [⟨.H, 1000⟩, ⟨.L, 3000⟩, ⟨.H, 300⟩]) := by decide
/-- V-TX-1's ops 2 and 3. -/
theorem test_lineSym1 :
    seen (fun t => (t.txLine, t.tx.op, t.driveLog)) (exec .lineSym1 (sendingAt 0 2 ⟨.H, 300⟩)) =
      some (.L, 4, [⟨.H, 300⟩, ⟨.L, 100⟩, ⟨.H, 300⟩]) := by decide
/-- V-TX-1's ops 6 and 7. -/
theorem test_lineSym0 :
    seen (fun t => (t.txLine, t.tx.op, t.driveLog)) (exec .lineSym0 (sendingAt 0 6 ⟨.H, 100⟩)) =
      some (.L, 8, [⟨.H, 100⟩, ⟨.L, 300⟩, ⟨.H, 1000⟩]) := by decide
/-- The last frame's marker: SUCCESS, the line high. -/
theorem test_lineCloseMark :
    seen (fun t => (t.txState, t.txResult, t.txLine, t.driveLog)) (exec .lineCloseMark (sendingAt 1 8 ⟨.H, 1000⟩)) =
      some (.idle, .success, .H, [⟨.H, 1000⟩, ⟨.H, 1000⟩]) := by decide
/-- V-TX-1: the framing bit's pair. -/
theorem test_symbitsFraming :
    seen (fun t => (t.tx.op, t.driveLog)) (exec .symbitsFraming (sendingAt 0 2 ⟨.H, 300⟩)) =
      some (4, [⟨.H, 300⟩, ⟨.L, 100⟩, ⟨.H, 300⟩]) := by decide
/-- V-TX-1: the data bit 1 is symbols 1, 0: H300 L100 H100 L300. -/
theorem test_symbitsData1 :
    seen (fun t => (t.tx.op, t.driveLog)) (exec .symbitsData1 (sendingAt 0 4 ⟨.H, 300⟩)) =
      some (8, [⟨.H, 300⟩, ⟨.L, 100⟩, ⟨.H, 100⟩, ⟨.L, 300⟩, ⟨.H, 1000⟩]) := by decide
/-- The same send with code 0: the data bit 0 is symbols 0, 1. -/
theorem test_symbitsData0 :
    seen (fun t => (t.tx.op, t.driveLog))
      (exec .symbitsData0 { sendingAt 0 4 ⟨.H, 100⟩ with tx := ⟨1, 0, 1, 100, 2, 0, 4⟩ }) =
      some (8, [⟨.H, 100⟩, ⟨.L, 300⟩, ⟨.H, 300⟩, ⟨.L, 100⟩, ⟨.H, 1000⟩]) := by decide

/-! ## The fetch of the host -/

theorem test_withFetchWord_runs :
    seen (fun t => (t.txState, t.txResult, t.input)) (step (start.withFetchWord 128 0xF)) = some (.idle, .none, []) := by
  decide +kernel

/-! ## Witnesses: the hypotheses of each obligation can be met together -/

theorem witness_EncodedCommandsDecodeBack : (Instr.txSend 255 true true 0xFFFF 0xFFFFFF 255 0).wellFormed = true := by decide
theorem witness_DecodedWordsEncodeBack : decode 0x12 = .instr (.drvResp true) := by decide
theorem witness_BytesCarryTheWord : 0 < 16 ∧ 15 < 16 := by decide
theorem witness_StepRunsDecodedWord :
    ({ start with input := [0xF, 0x2] } : State).input = 0xF :: [0x2] ∧ decode 0xF = .instr .reset ∧ start.input = [] := by
  decide
theorem witness_ReservedWordOnlySetsRefusalMark :
    ({ start with input := [0x7] } : State).input = 0x7 :: [] ∧ decode 0x7 = .rejected .reservedOpcode ∧
    ({ start with input := [0x1F] } : State).input = 0x1F :: [] ∧ decode 0x1F = .rejected .reservedField := by decide
theorem witness_ReservedWordOnlySetsRefusalMark_next :
    step { start with input := [0x7] } = .next { start with marks := ⟨false, true, false⟩ } ∧
    ∀ i, decode 0x7 ≠ .instr i := by
  have h : decode 0x7 = .rejected .reservedOpcode := by decide
  exact ⟨rfl, fun i => by rw [h]; exact nofun⟩
theorem witness_TableIsImmutable : ∃ t, exec (.send 1 1 1) start = .next t ∧ ∃ u, step start = .next u := ⟨_, rfl, _, rfl⟩
theorem witness_ObservationsOnlyGrow :
    ∃ t, step { start with input := [0x0], marks := ⟨true, true, false⟩ } = .next t ∧
      State.unmarked { start with input := [0x0], marks := ⟨true, true, false⟩ } = false := ⟨_, rfl, rfl⟩
theorem witness_LookupValidIndices : (6 : ProtoIdx).toNat = 5 + 1 ∧ (1 : ProtoIdx).toNat = 0 + 1 := by decide
theorem witness_BadConfigGetsNoRun :
    (∃ p ∈ [({ tp1.toRawProfile with oneLow := 0 } : RawProfile)], ¬p.Legal) ∧
    (∀ p ∈ [tp1.toRawProfile], p.Legal) ∧ 1 ≤ [tp1.toRawProfile].length ∧ [tp1.toRawProfile].length ≤ 255 := by decide
theorem witness_TxSendStartsSend :
    start.txState = .idle ∧ lookup start.pt 1 = some tp1 ∧ lookup start.pt 6 = some tp2 ∧ (1 : BitVec 16) ≠ 0 := by decide
theorem witness_InvalidProtocolPresentsNothing :
    start.txState = .idle ∧ ¬(1 ≤ (0 : ProtoIdx).toNat ∧ (0 : ProtoIdx).toNat ≤ start.pt.nProto) ∧
    ¬(1 ≤ (7 : ProtoIdx).toNat ∧ (7 : ProtoIdx).toNat ≤ start.pt.nProto) := by decide
theorem witness_RepeatZeroSucceedsAtOnce :
    start.txState = .idle ∧ (1 ≤ (6 : ProtoIdx).toNat ∧ (6 : ProtoIdx).toNat ≤ start.pt.nProto) ∧
    ¬(1 ≤ (7 : ProtoIdx).toNat ∧ (7 : ProtoIdx).toNat ≤ start.pt.nProto) := by decide
theorem witness_OverlapOnlyMarksFault : (sendingAt 0 3 ⟨.L, 100⟩).txState = .sending := by decide
theorem witness_DrvRespOkPresentsNextOp :
    (sendingAt 0 8 ⟨.H, 1000⟩).txState = .sending ∧ lookup table 1 = some tp1 ∧
    (frame 1 1 tp1 100)[8]? = some ⟨.H, 1000⟩ ∧ (frame 1 1 tp1 100)[8 + 1]? = some ⟨.H, 1000⟩ ∧
    (frame 1 1 tp1 100)[0]? = some ⟨.H, 1000⟩ ∧ (frame 1 1 tp1 100)[0 + 1]? = some ⟨.L, 3000⟩ ∧
    (0 : BitVec 16) ≠ 2 := by decide
theorem witness_DrvRespOkStartsNextFrame :
    (sendingAt 0 9 ⟨.H, 1000⟩).txState = .sending ∧ lookup table 1 = some tp1 ∧
    (sendingAt 0 9 ⟨.H, 1000⟩).tx.op.toNat + 1 = 4 * (sendingAt 0 9 ⟨.H, 1000⟩).tx.w.toNat + 6 ∧
    (0 : BitVec 16) + 1 ≠ 2 := by decide
theorem witness_DrvRespOkEndsSend :
    (sendingAt 1 9 ⟨.H, 1000⟩).txState = .sending ∧ lookup table 1 = some tp1 ∧
    (sendingAt 1 9 ⟨.H, 1000⟩).tx.op.toNat + 1 = 4 * (sendingAt 1 9 ⟨.H, 1000⟩).tx.w.toNat + 6 ∧
    (sendingAt 1 9 ⟨.H, 1000⟩).tx.rep + 1 = (sendingAt 1 9 ⟨.H, 1000⟩).tx.r := by decide
theorem witness_DrvRespFailEndsSend : (sendingAt 0 0 ⟨.H, 1000⟩).txState = .sending := by decide
theorem witness_DrvRespWhileIdleHasNoStep : start.txState = .idle := by decide
theorem witness_SymbolSequence : 0 < 1 ∧ 23 < 24 := by decide
theorem witness_FrameOpByOp : (symbols 1 1)[0]? = some true ∧ (symbols 1 1)[1]? = some true ∧
    (symbols 1 1)[2]? = some false := by decide
theorem witness_SendRepeatsFrameWithoutGap :
    0 < 2 * (4 * 1 + 6) ∧ 19 < 2 * (4 * 1 + 6) ∧ 1 < 2 ∧ (⟨.H, 0⟩ : DriveOp) ∈ sendOps 2 (frame 1 1 tp1 0) := by decide
theorem witness_FailedDriveEmitsNothingFurther :
    start.txState = .idle ∧ lookup start.pt 1 = some tp1 ∧
    0 < (2 : BitVec 16).toNat * (4 * dataWidth 1 true 1 + 6) ∧
    19 < (2 : BitVec 16).toNat * (4 * dataWidth 1 true 1 + 6) := by decide
theorem witness_LineSyncOpenDrivesSync :
    (sendingAt 0 0 ⟨.H, 1000⟩).txState = .sending ∧ lookup table 1 = some tp1 ∧
    (sendingAt 0 0 ⟨.H, 1000⟩).tx.op = 0 ∧ (0 : BitVec 16) ≠ 2 := by decide
theorem witness_LineSymbolsDrivePair :
    (sendingAt 0 2 ⟨.H, 300⟩).txState = .sending ∧ lookup table 1 = some tp1 ∧
    (sendingAt 0 2 ⟨.H, 300⟩).tx.op.toNat = 2 + 2 * 0 ∧ (0 : BitVec 16) ≠ 2 ∧
    (frame 1 1 tp1 100)[4 + 2 * 0]? = some ⟨.H, 300⟩ ∧ (symbols 1 1)[0]? = some true ∧
    (sendingAt 0 6 ⟨.H, 100⟩).tx.op.toNat = 2 + 2 * 2 ∧ (frame 1 1 tp1 100)[4 + 2 * 2]? = some ⟨.H, 1000⟩ ∧
    (symbols 1 1)[2]? = some false := by decide
theorem witness_LineCloseMarkEndsFrame :
    (sendingAt 0 8 ⟨.H, 1000⟩).txState = .sending ∧ lookup table 1 = some tp1 ∧
    (sendingAt 0 8 ⟨.H, 1000⟩).tx.op.toNat = 4 * 1 + 4 ∧ (0 : BitVec 16) ≠ 2 ∧ (0 : BitVec 16) + 1 ≠ 2 ∧
    (1 : BitVec 16) ≠ 2 ∧ (1 : BitVec 16) + 1 = 2 := by decide
theorem witness_LineCodeElsewhereStops :
    start.txState = .idle ∧ (sendingAt 0 1 ⟨.L, 3000⟩).tx.op ≠ 0 ∧ (sendingAt 0 1 ⟨.L, 3000⟩).tx.op ≠ 2 ∧
    (sendingAt 0 7 ⟨.L, 300⟩).tx.op.toNat ≠ 4 * (sendingAt 0 7 ⟨.L, 300⟩).tx.w.toNat + 4 := by decide
theorem witness_LineCodeElsewhereStops_sym :
    (¬∃ k, (sendingAt 0 0 ⟨.H, 1000⟩).tx.op.toNat = 2 + 2 * k ∧ (symbols 1 1)[k]? = some true) ∧
    (¬∃ k, (sendingAt 0 0 ⟨.H, 1000⟩).tx.op.toNat = 2 + 2 * k ∧ (symbols 1 1)[k]? = some false) ∧
    (¬∃ j, j < 1 ∧ (sendingAt 0 0 ⟨.H, 1000⟩).tx.op.toNat = 4 + 4 * j ∧ (1 : Code).getLsbD (1 - 1 - j) = false) ∧
    (¬∃ j, j < 1 ∧ (sendingAt 0 0 ⟨.H, 1000⟩).tx.op.toNat = 4 + 4 * j ∧ (1 : Code).getLsbD (1 - 1 - j) = true) := by
  simp [sendingAt]
  exact ⟨fun k h => by omega, fun k h => by omega⟩
theorem witness_SymbitsFramingDrivesOne :
    (sendingAt 0 2 ⟨.H, 300⟩).txState = .sending ∧ lookup table 1 = some tp1 ∧
    (sendingAt 0 2 ⟨.H, 300⟩).tx.op = 2 ∧ (0 : BitVec 16) ≠ 2 ∧ (frame 1 1 tp1 100)[4]? = some ⟨.H, 300⟩ := by decide
theorem witness_SymbitsDataDriveBothSymbols :
    (sendingAt 0 4 ⟨.H, 300⟩).txState = .sending ∧ lookup table 1 = some tp1 ∧ 0 < 1 ∧
    (sendingAt 0 4 ⟨.H, 300⟩).tx.op.toNat = 4 + 4 * 0 ∧ (0 : BitVec 16) ≠ 2 ∧
    (frame 1 1 tp1 100)[8 + 4 * 0]? = some ⟨.H, 1000⟩ ∧ (1 : Code).getLsbD (1 - 1 - 0) = true ∧
    (frame 0 1 tp1 100)[8 + 4 * 0]? = some ⟨.H, 1000⟩ ∧ (0 : Code).getLsbD (1 - 1 - 0) = false := by decide
theorem witness_ClassifyNearestTieZero :
    (fitsZero tpNear 1210 1000 = false ∧ fitsOne tpNear 1210 1000 = true) ∧
    (fitsZero tpNear 800 1000 = true ∧ fitsOne tpNear 800 1000 = false) ∧
    (fitsZero tpNear 700 700 = false ∧ fitsOne tpNear 700 700 = false) ∧
    (fitsZero tpNear 1100 1060 = true ∧ fitsOne tpNear 1100 1060 = true ∧
      devOne tpNear 1100 1060 < devZero tpNear 1100 1060) ∧
    (fitsZero tpNear 1050 1050 = true ∧ fitsOne tpNear 1050 1050 = true ∧
      devZero tpNear 1050 1050 ≤ devOne tpNear 1050 1050) := by decide
theorem witness_DecodeGateAndInferredPulse :
    ((durations 0 24 tp1).take 48).length ≤ 48 ∧ within 1201 (tp1.syncHigh.toNat * tp1.pulseLength.toNat) = false ∧
    within 1000 (tp1.syncLow.toNat * tp1.pulseLength.toNat) = false ∧
    tryDecode (1000 :: 3000 :: (durations 5 11 tp1).drop 2) tp1 = some ⟨5, 11, 100, 0x155566, 22⟩ := by decide +kernel
/-- The hypotheses of the pair walk's converse: a frame of the one logical bit 1 under TP1, padded to 49 entries. -/
theorem witness_DecodeGateAndInferredPulse_walk :
    ([1000, 3000, 300, 100, 300, 100, 100, 300, 1000, 1000] ++ List.replicate 39 7) =
      1000 :: 3000 :: 300 :: 100 :: ([(300, 100), (100, 300)].flatMap fun p => [p.1, p.2]) ++
        1000 :: 1000 :: List.replicate 39 7 ∧
    48 < ([1000, 3000, 300, 100, 300, 100, 100, 300, 1000, 1000] ++ List.replicate 39 7).length ∧
    within 1000 (tp1.syncHigh.toNat * tp1.pulseLength.toNat) = true ∧
    within 3000 (tp1.syncLow.toNat * tp1.pulseLength.toNat) = true ∧ classify tp1 300 100 ≠ none ∧
    ([(300, 100), (100, 300)].map fun p => classify tp1 p.1 p.2) = ([true].flatMap expand).map some ∧
    classify tp1 1000 1000 = none := by decide +kernel
/-- V-DEC-19's early marker: the walk meets it at index 4, far before entry 48, with 43 entries after it. -/
theorem witness_EntriesAfterMarkerIgnored :
    walk tp1 false ([1000, 3000, 300, 100, 1000, 1000].drop 2) = some [] ∧
    48 < ([1000, 3000, 300, 100, 1000, 1000] ++ List.replicate 43 7).length ∧
    48 < ([1000, 3000, 300, 100, 1000, 1000] ++ List.replicate 44 9).length := by decide +kernel
/-- The first pair must classify: a marker in its place is NoMatch (R168). -/
theorem test_decode_marker_first :
    tryDecode ([1000, 3000, 1000, 1000] ++ List.replicate 45 7) tp1 = none ∧
    tryDecode ([1000, 3000, 300, 100, 1000, 1000] ++ List.replicate 43 7) tp1 = some ⟨0, 0, 100, 0, 0⟩ := by decide +kernel
/-- The Match that EntriesAfterMarkerIgnored, MatchUndoublesRawPattern, MatchBounds and MatchPassesNoiseByLengthOnly
speak of (V-DEC-10), and the longest one that a buffer holds (V-DEC-7). -/
theorem witness_Match :
    tryDecode (durations 5 11 tp1) tp1 = some ⟨5, 11, 100, 0x155566, 22⟩ ∧ (durations 5 11 tp1).length ≤ 256 ∧
    (∀ e ∈ durations 5 11 tp1, e < 2 ^ 32) ∧
    (tryDecode (durations 0x3FFFFFFFFFFFFFFF 62 tp1) tp1).isSome = true ∧
    (durations 0x3FFFFFFFFFFFFFFF 62 tp1).length ≤ 256 := by decide +kernel
theorem witness_EqualSymbolPairsMatchOnlyEmptyFrame :
    tp4.zeroHigh = tp4.oneHigh ∧ tp4.zeroLow = tp4.oneLow ∧
    tryDecode ([1000, 3000, 200, 200, 1000, 1000] ++ List.replicate 43 7) tp4 = some ⟨0, 0, 100, 0, 0⟩ := by decide +kernel
theorem witness_FrameDecodesBack :
    11 ≤ 11 ∧ 62 ≤ 62 ∧ bitlen1 (5 : Code).toNat ≤ 11 ∧ bitlen1 (0x3FFFFFFFFFFFFFFF : Code).toNat ≤ 62 ∧
    ¬(tp1.zeroHigh = tp1.oneHigh ∧ tp1.zeroLow = tp1.oneLow) ∧
    fitsZero tp1 (expected tp1 tp1.syncHigh) (expected tp1 tp1.syncHigh) = false ∧
    fitsOne tp1 (expected tp1 tp1.syncHigh) (expected tp1 tp1.syncHigh) = false := by decide
/-- V-RX-2 and V-RX-8: the boundary value 2000, and the last entry that is appended. -/
theorem witness_RxEdgeAppends :
    (edgeDuration start 2000).toNat ≤ 2000 ∧ start.rxCount.toNat < 256 ∧
    (edgeDuration (receiving 255) 12000).toNat ≤ 2000 ∧ (receiving 255).rxCount.toNat < 256 := by decide
/-- V-RX-6 at the boundary value 2000. -/
theorem witness_RxEdgeOverflowResets :
    (edgeDuration (receiving 256) 12000).toNat ≤ 2000 ∧ 256 ≤ (receiving 256).rxCount.toNat := by decide
/-- V-RX-3 and V-RX-7. -/
theorem witness_RxEdgeBoundaryResets :
    2000 < (edgeDuration start 2001).toNat ∧ 2000 < (edgeDuration (receiving 256) 12001).toNat := by decide

/-- A first Match is a dispatch's answer. -/
theorem firstMatch_of_decodeBuffer {s : State} {p : ProtoIdx} {m : Match} (h : s.decodeBuffer = some (p.toNat, m)) :
    s.FirstMatch p m := by
  obtain ⟨k, prof, hk, hp, hm, hno⟩ := firstMatch_eq_some_iff.1 h
  have look : ∀ (q : ProtoIdx) (j : Nat) (r : Profile), q.toNat = j + 1 → s.pt.profiles[j]? = some r →
      lookup s.pt q = some r := by
    intro q j r hq hr
    have hj := (List.getElem?_eq_some_iff.1 hr).1
    rw [lookup, if_neg (by simp only [ProtoTable.nProto]; omega), hq]
    exact hr
  refine ⟨⟨prof, look p k prof (by omega) hp, hm⟩, fun q r hq hr => ?_⟩
  unfold lookup at hr
  split at hr
  · cases hr
  · exact hno (q.toNat - 1) r (by omega) hr

/-- Program P3: TP1 fails at the sync, TP2 matches and passes; P3b: TP2 matches and is noise. -/
theorem witness_RxEdgeBoundaryEvent_emitted :
    2000 < (edgeDuration (holding (jittered 0x1ABCD 17)) 5000).toNat ∧
    (holding (jittered 0x1ABCD 17)).rxCount.toNat ≤ 256 ∧
    (holding (jittered 0x1ABCD 17)).FirstMatch 2 ⟨0x1ABCD, 17, 100, 0x2999AA5A6, 34⟩ ∧ noiseOk 0x2999AA5A6 = true :=
  ⟨by decide +kernel, by decide +kernel, firstMatch_of_decodeBuffer (by decide +kernel), by decide +kernel⟩
theorem witness_RxEdgeBoundaryEvent_noise :
    (holding (jittered 5 11)).FirstMatch 2 ⟨5, 11, 100, 0x155566, 22⟩ ∧ noiseOk 0x155566 = false :=
  ⟨firstMatch_of_decodeBuffer (by decide +kernel), by decide +kernel⟩
/-- V-RX-3: an empty buffer matches nothing. -/
theorem witness_RxEdgeBoundaryEvent_noMatch :
    2000 < (edgeDuration start 2001).toNat ∧ start.rxCount.toNat ≤ 256 ∧ start.NoMatch :=
  ⟨by decide, by decide, fun _ _ _ => rfl⟩

/-- A buffer started at a boundary by an edge of 2001 µs. -/
def boundaryStarted : State := start.startBuffer 2001

theorem witness_ZeroJitterFrameNeverHeld : boundaryStarted.RxInv ∧ 2000 < boundaryStarted.rxb[0].toNat := by
  refine ⟨⟨by decide, fun k hk => ?_, fun k hk => ?_⟩, by decide +kernel⟩
  · have hk : 1 ≤ k.val := hk
    rw [boundaryStarted, startBuffer_getElem, if_neg (by omega)]
  · rw [boundaryStarted, startBuffer_getElem, if_neg (by omega)]; decide

/-- A state in the middle of a send meets the transmit invariant and takes a step. -/
theorem witness_StepKeepsTransmitInvariant :
    ({ sendingAt 0 9 ⟨.H, 1000⟩ with input := [0x12] } : State).TxInv ∧
    ∃ t, step { sendingAt 0 9 ⟨.H, 1000⟩ with input := [0x12] } = .next t :=
  ⟨⟨by simp [sendingAt], by simp [sendingAt], fun _ => ⟨tp1, by decide, by decide, by decide, by decide, by decide, by decide⟩⟩,
    _, rfl⟩
/-- The receive invariant and the events' bound hold right after a boundary, and an edge is taken. -/
theorem witness_StepKeepsReceiveInvariant :
    ({ boundaryStarted with input := [0x0000000000000000000003E800000003] } : State).RxInv ∧
    ({ boundaryStarted with input := [0x0000000000000000000003E800000003] } : State).EventsBounded ∧
    ∃ t, step { boundaryStarted with input := [0x0000000000000000000003E800000003] } = .next t :=
  ⟨witness_ZeroJitterFrameNeverHeld.1, fun _ he => absurd he (List.not_mem_nil), _, rfl⟩
/-- From power-on an answer to no request stops. -/
theorem witness_OnlyStrayDrvRespStops :
    ({ start with input := [0x12] } : State).TxInv ∧ step { start with input := [0x12] } = .fault .drvRespWhileIdle :=
  ⟨⟨by simp [start, State.init], by simp [start, State.init], by simp [start, State.init]⟩, rfl⟩
theorem witness_TransmitLeavesReceive :
    (∀ ts, Instr.drvResp true ≠ .rxEdge ts) ∧ Instr.drvResp true ≠ .reset ∧
    ∃ t, exec (.drvResp true) (sendingAt 0 9 ⟨.H, 1000⟩) = .next t := ⟨nofun, nofun, _, rfl⟩

end Sys2Proof.Tests
end

section
/-! PROOFS of 00_scope.md. What a step runs (R8, R57, R70, R258), the check of the configuration at power-on (R10, R103),
and the power-on state (R31, R271). -/

namespace Sys2Proof.Machine

/-! ## Taking a word -/

theorem takeWord_of_input_nil {s : State} (h : s.input = []) : s.takeWord = none := by
  rw [State.takeWord, h]

theorem takeWord_of_input_cons {s : State} {w : CmdWord} {ws : List CmdWord} (h : s.input = w :: ws) :
    s.takeWord = some (w, { s with input := ws }) := by
  rw [State.takeWord, h]

theorem step_of_input_nil {s : State} (h : s.input = []) : step s = .next s := by
  rw [step, takeWord_of_input_nil h]

theorem step_of_instr {s : State} {w : CmdWord} {ws : List CmdWord} {i : Instr} (hin : s.input = w :: ws)
    (hd : decode w = .instr i) : step s = exec i { s with input := ws } := by
  rw [step, takeWord_of_input_cons hin]
  simp only [hd]

/-- Settles O7: the equations of `step` for a word that decodes and for no word. -/
theorem stepRunsDecodedWord : Obligations.StepRunsDecodedWord :=
  fun _ => ⟨fun _ _ _ hin hd => step_of_instr hin hd, step_of_input_nil⟩

/-! ## The check of the configuration -/

/-- The check answers exactly the lists of profiles whose raw values are the configuration (R103). -/
theorem checkProfiles_eq_some_iff {ps : List RawProfile} {qs : List Profile} :
    checkProfiles ps = some qs ↔ qs.map Profile.toRawProfile = ps := by
  induction ps generalizing qs with
  | nil => simp [checkProfiles, eq_comm (a := ([] : List Profile))]
  | cons p ps ih =>
    rw [checkProfiles, List.map_eq_cons_iff]
    constructor
    · intro h
      split at h
      next q qs' hq hqs =>
        cases h
        exact ⟨q, qs', rfl, checkProfile_eq_some_iff.1 hq, ih.1 hqs⟩
      next => cases h
    · rintro ⟨q, qs', rfl, hq, hqs⟩
      simp only [checkProfile_eq_some_iff.2 hq, ih.2 hqs]

/-- The check of a whole configuration answers exactly the tables over its profiles (R10, R103). -/
theorem checkConfig_eq_some_iff {ps : List RawProfile} {t : ProtoTable} :
    checkConfig ps = some t ↔ t.profiles.map Profile.toRawProfile = ps := by
  rw [← checkProfiles_eq_some_iff, checkConfig]
  cases hc : checkProfiles ps with
  | none => simp
  | some qs =>
    constructor
    · intro h
      simp only [Option.dite_none_right_eq_some] at h
      obtain ⟨_, h⟩ := h
      cases h
      rfl
    · intro h
      cases h
      simp only [dif_pos (And.intro t.nonempty t.bounded)]

/-- A configuration that passes the check has only legal profiles: each carries its proof. -/
theorem legal_of_checkConfig {ps : List RawProfile} {t : ProtoTable} (h : checkConfig ps = some t) {p : RawProfile}
    (hp : p ∈ ps) : p.Legal := by
  rw [← checkConfig_eq_some_iff.1 h] at hp
  obtain ⟨q, -, rfl⟩ := List.mem_map.1 hp
  exact q.legal

/-- The table of a good configuration. -/
def ProtoTable.ofLegal (ps : List RawProfile) (legal : ∀ p ∈ ps, p.Legal) (nonempty : 1 ≤ ps.length)
    (bounded : ps.length ≤ 255) : ProtoTable where
  profiles := ps.pmap Profile.mk legal
  nonempty := by rwa [List.length_pmap]
  bounded := by rwa [List.length_pmap]

theorem ProtoTable.ofLegal_profiles_map (ps : List RawProfile) (legal : ∀ p ∈ ps, p.Legal) (nonempty : 1 ≤ ps.length)
    (bounded : ps.length ≤ 255) :
    (ProtoTable.ofLegal ps legal nonempty bounded).profiles.map Profile.toRawProfile = ps := by
  simp [ProtoTable.ofLegal, List.map_pmap]

theorem powerOn_of_illegal {ps : List RawProfile} (h : ∃ p ∈ ps, ¬p.Legal) : powerOn ps = .refused .badConfig := by
  obtain ⟨p, hp, hbad⟩ := h
  rw [powerOn]
  cases hc : checkConfig ps with
  | none => rfl
  | some t => exact absurd (legal_of_checkConfig hc hp) hbad

theorem powerOn_of_profiles_map {ps : List RawProfile} {t : ProtoTable} (h : t.profiles.map Profile.toRawProfile = ps) :
    powerOn ps = .next (State.init t) := by
  rw [powerOn, checkConfig_eq_some_iff.2 h]

/-- Settles O12: the check answers the tables over the given profiles, and a table's profiles are legal. -/
theorem badConfigGetsNoRun : Obligations.BadConfigGetsNoRun := by
  intro ps
  refine ⟨powerOn_of_illegal, fun legal nonempty bounded => ?_⟩
  have hmap := ProtoTable.ofLegal_profiles_map ps legal nonempty bounded
  exact ⟨_, hmap, powerOn_of_profiles_map hmap⟩

/-! ## The power-on state -/

/-- An idle block with no request outstanding and no result pending (R85, R135). -/
theorem txInv_of_idle {s : State} (hs : s.txState = .idle) (hr : s.txResult ≠ .busy) (ho : s.outstanding = none) :
    s.TxInv :=
  ⟨by simp [hs, hr], fun _ => ho, by simp [hs]⟩

theorem init_rxb_getElem (pt : ProtoTable) (k : Fin rxCapacity) : (State.init pt).rxb[k] = 0 := by
  simp [State.init]

theorem init_rxInv (pt : ProtoTable) : (State.init pt).RxInv := by
  refine ⟨by simp [State.init], fun k _ => init_rxb_getElem pt k, fun k _ => ?_⟩
  rw [init_rxb_getElem]
  exact Nat.zero_le _

/-- The power-on state of every table meets the invariant of the block. -/
theorem init_inv (pt : ProtoTable) : (State.init pt).Inv :=
  ⟨txInv_of_idle rfl nofun rfl, init_rxInv pt, fun _ he => absurd he List.not_mem_nil⟩

/-- Settles O53: R31's values as `State.init` sets them, and the invariant at the power-on state of any table. -/
theorem resetStateMeetsInvariant : Obligations.ResetStateMeetsInvariant :=
  ⟨rxCapacity_eq, rfl, rfl, rfl, rfl, init_rxb_getElem _, rfl, rfl, rfl, rfl, rfl, init_inv _⟩

end Sys2Proof.Machine
end

section
/-! PROOFS of 10_state.md. The transmit side and the receive side leave each other alone and commute (R34, R60), a step
keeps both engines' invariants (R24, R29, R85, R135) and only adds to the logs and the marks (R32, R33), and what DRV_RESP,
RESET and a reserved word do to the state (R75, R136, R242, R270). -/

namespace Sys2Proof.Machine

/-! ## What an instruction of the transmit side is -/

/-- The meanings of the instructions that drive or command the TX sequencer: every row but RX_EDGE and RESET. -/
inductive TransmitMeaning : (State → Answer) → Prop where
  | transmit (proto : ProtoIdx) (plv blv : Bool) (rep : RepeatCount) (pl : PulseLen) (bl : BitLen) (code : Code) :
      TransmitMeaning (transmit proto plv blv rep pl bl code)
  | drvResp (ok : Bool) : TransmitMeaning (execDrvResp ok)
  | pair (p : LinePair) : TransmitMeaning (drivePair p)
  | group (g : SymbolGroup) : TransmitMeaning (driveGroup g)

theorem exec_transmitMeaning {i : Instr} (hrx : ∀ ts, i ≠ .rxEdge ts) (hreset : i ≠ .reset) :
    TransmitMeaning (exec i) := by
  cases i with
  | txSend proto plv blv rep pl bl code => exact .transmit proto plv blv rep pl bl code
  | drvResp ok => exact .drvResp ok
  | rxEdge ts => exact absurd rfl (hrx ts)
  | reset => exact absurd rfl hreset
  | send code proto rep => exact .transmit proto false false rep 0 0 code
  | lineSyncOpen => exact .pair .syncOpen
  | lineSym1 => exact .pair (.sym true)
  | lineSym0 => exact .pair (.sym false)
  | lineCloseMark => exact .pair .closeMark
  | symbitsData0 => exact .group (.data false)
  | symbitsData1 => exact .group (.data true)
  | symbitsFraming => exact .group .framing

theorem exec_rxEdge (ts : Stamp) (s : State) : exec (.rxEdge ts) s = .next (rxEdge ts s).1 := rfl

theorem exec_reset (s : State) : exec .reset s = .next s.hardReset := rfl

theorem execDrvResp_of_idle {s : State} (hs : s.txState = .idle) (ok : Bool) :
    execDrvResp ok s = .fault .drvRespWhileIdle := by
  rw [execDrvResp, if_pos hs]

theorem execDrvResp_true {s : State} (hs : s.txState = .sending) : execDrvResp true s = answerOk s := by
  rw [execDrvResp, if_neg (by simp [hs]), if_pos rfl]

theorem execDrvResp_false {s : State} (hs : s.txState = .sending) : execDrvResp false s = .next (answerFail s) := by
  rw [execDrvResp, if_neg (by simp [hs]), if_neg Bool.false_ne_true]

/-- Everything DRV_RESP can do: a next state comes only while SENDING (R136). -/
theorem execDrvResp_cases {ok : Bool} {s t : State} (h : execDrvResp ok s = .next t) :
    s.txState = .sending ∧ ((ok = true ∧ answerOk s = .next t) ∨ (ok = false ∧ t = answerFail s)) := by
  cases hs : s.txState with
  | idle => rw [execDrvResp_of_idle hs] at h; cases h
  | sending =>
    cases ok with
    | true => exact ⟨rfl, .inl ⟨rfl, execDrvResp_true hs ▸ h⟩⟩
    | false => rw [execDrvResp_false hs] at h; cases h; exact ⟨rfl, .inr ⟨rfl, rfl⟩⟩

/-- A pair that answers a next state has had its two ops answered. -/
theorem answersOk_of_drivePair {p : LinePair} {s t : State} (h : drivePair p s = .next t) : answersOk 2 s = .next t := by
  unfold drivePair at h
  split at h
  · exact h
  · cases h

/-- A group that answers a next state has had all its ops answered. -/
theorem answersOk_of_driveGroup {g : SymbolGroup} {s t : State} (h : driveGroup g s = .next t) :
    answersOk (2 * (groupBits g).length) s = .next t := by
  unfold driveGroup at h
  split at h
  · exact h
  · cases h

/-! ## The receive side of a state -/

/-- `s` with the receive state and the event log of `v` (R27, R32). -/
def State.withReceiveOf (s v : State) : State :=
  { s with rxb := v.rxb, rxCount := v.rxCount, rxLastTs := v.rxLastTs, eventLog := v.eventLog }

@[simp] theorem State.withReceiveOf_pt (s v : State) : (s.withReceiveOf v).pt = s.pt := rfl
@[simp] theorem State.withReceiveOf_txState (s v : State) : (s.withReceiveOf v).txState = s.txState := rfl
@[simp] theorem State.withReceiveOf_tx (s v : State) : (s.withReceiveOf v).tx = s.tx := rfl
@[simp] theorem State.withReceiveOf_currentFrame (s v : State) : (s.withReceiveOf v).currentFrame = s.currentFrame := rfl

/-- What DRV_RESP leaves: the table, the words waiting, the receive state and the events. -/
theorem execDrvResp_keeps {ok : Bool} {s t : State} (h : execDrvResp ok s = .next t) :
    t.pt = s.pt ∧ t.input = s.input ∧ t.rxb = s.rxb ∧ t.rxCount = s.rxCount ∧ t.rxLastTs = s.rxLastTs ∧
      t.eventLog = s.eventLog := by
  obtain ⟨-, ⟨-, h⟩ | ⟨-, rfl⟩⟩ := execDrvResp_cases h
  · obtain ⟨hpt, hin, hb, hc, hl, he, -⟩ := answerOk_keeps h
    exact ⟨hpt, hin, hb, hc, hl, he⟩
  · simp [answerFail]

/-- What every instruction of the transmit side leaves (R34, R105). -/
theorem TransmitMeaning.keeps {f : State → Answer} (hf : TransmitMeaning f) {s t : State} (h : f s = .next t) :
    t.pt = s.pt ∧ t.input = s.input ∧ t.rxb = s.rxb ∧ t.rxCount = s.rxCount ∧ t.rxLastTs = s.rxLastTs ∧
      t.eventLog = s.eventLog := by
  cases hf with
  | transmit => exact transmit_keeps h
  | drvResp => exact execDrvResp_keeps h
  | pair =>
    obtain ⟨hpt, hin, hb, hc, hl, he, -⟩ := answersOk_keeps (answersOk_of_drivePair h)
    exact ⟨hpt, hin, hb, hc, hl, he⟩
  | group =>
    obtain ⟨hpt, hin, hb, hc, hl, he, -⟩ := answersOk_keeps (answersOk_of_driveGroup h)
    exact ⟨hpt, hin, hb, hc, hl, he⟩

theorem TransmitMeaning.withReceiveOf_self {f : State → Answer} (hf : TransmitMeaning f) {s t : State}
    (h : f s = .next t) : t.withReceiveOf s = t := by
  obtain ⟨-, -, hb, hc, hl, he⟩ := hf.keeps h
  rw [State.withReceiveOf, ← hb, ← hc, ← hl, ← he]

/-- Settles O58: every instruction of the transmit side keeps the receive state. -/
theorem transmitLeavesReceive : Obligations.TransmitLeavesReceive := by
  intro i s t hrx hreset h
  obtain ⟨-, hin, hb, hc, hl, he⟩ := (exec_transmitMeaning hrx hreset).keeps h
  exact ⟨hb, hc, hl, he, hin⟩

/-! ## RX_EDGE and the transmit side do not read each other's state -/

/-- The decode of a boundary reads the table and the receive state, and writes the receive side only. -/
theorem decodeAtBoundary_withReceiveOf {s v : State} (hpt : s.pt = v.pt) :
    (decodeAtBoundary (s.withReceiveOf v)).1 = s.withReceiveOf (decodeAtBoundary v).1 := by
  have hd : (s.withReceiveOf v).decodeBuffer = v.decodeBuffer := by
    unfold State.decodeBuffer; rw [← hpt]; rfl
  unfold decodeAtBoundary
  rw [hd]
  cases v.decodeBuffer with
  | none => rfl
  | some pm => by_cases hn : noiseOk pm.2.raw <;> simp only [hn] <;> rfl

/-- RX_EDGE on a state put together from two: only the receive side and the table count, and only the receive side
changes (R34, R218). -/
theorem rxEdge_withReceiveOf (ts : Stamp) {s v : State} (hpt : s.pt = v.pt) :
    (rxEdge ts (s.withReceiveOf v)).1 = s.withReceiveOf (rxEdge ts v).1 := by
  obtain hd | hd := Nat.lt_or_ge 2000 (edgeDuration v ts).toNat
  · rw [rxEdge_boundary (s := v) hd, rxEdge_boundary (s := s.withReceiveOf v) hd]
    exact congrArg (State.startBuffer · _) (decodeAtBoundary_withReceiveOf (v := v.setLastTs ts) hpt)
  · obtain hn | hn := Nat.lt_or_ge v.rxCount.toNat 256
    · rw [rxEdge_append (s := v) hd hn, rxEdge_append (s := s.withReceiveOf v) hd hn]; rfl
    · rw [rxEdge_overflow (s := v) hd hn, rxEdge_overflow (s := s.withReceiveOf v) hd hn]; rfl

theorem rxEdge_eq_withReceiveOf (ts : Stamp) (s : State) : (rxEdge ts s).1 = s.withReceiveOf (rxEdge ts s).1 :=
  rxEdge_withReceiveOf ts (s := s) (v := s) rfl

/-- Settles O59: RX_EDGE puts a new receive side on the state it finds. -/
theorem receiveLeavesTransmit : Obligations.ReceiveLeavesTransmit :=
  fun ts s => ⟨_, exec_rxEdge ts s, rxEdge_eq_withReceiveOf ts s⟩

/-- A meaning that answers the same whatever the receive side holds, and hands the receive side on. -/
def ReceiveBlind (f : State → Answer) : Prop :=
  ∀ s v : State, f (s.withReceiveOf v) = andThen (f s) fun t => .next (t.withReceiveOf v)

theorem transmit_receiveBlind (proto : ProtoIdx) (plv blv : Bool) (rep : RepeatCount) (pl : PulseLen) (bl : BitLen)
    (code : Code) : ReceiveBlind (transmit proto plv blv rep pl bl code) := by
  intro s v
  unfold transmit
  rw [State.withReceiveOf_txState, State.withReceiveOf_pt]
  split
  · rfl
  · cases lookup s.pt proto with
    | none => rfl
    | some prof => by_cases hr : rep = 0 <;> simp only [hr] <;> rfl

theorem advance_receiveBlind (f : List DriveOp) : ReceiveBlind (advance f) := by
  intro s v
  unfold advance
  dsimp only [State.withReceiveOf_tx]
  split
  · rfl
  · cases f[(nextPosition f.length s.tx).op.toNat]? <;> rfl

theorem answerOk_receiveBlind : ReceiveBlind answerOk := by
  intro s v
  unfold answerOk
  rw [State.withReceiveOf_currentFrame, State.withReceiveOf_tx]
  cases s.currentFrame with
  | none => rfl
  | some f =>
    dsimp only
    cases f[s.tx.op.toNat]? with
    | none => rfl
    | some op => exact advance_receiveBlind f (s.setLine op.level) v

theorem answersOk_receiveBlind (n : Nat) : ReceiveBlind (answersOk n) := by
  induction n with
  | zero => exact fun _ _ => rfl
  | succ n ih =>
    intro s v
    rw [answersOk, answersOk, answerOk_receiveBlind]
    cases answerOk s with
    | next t => exact ih t v
    | fault r => rfl
    | refused r => rfl

theorem execDrvResp_receiveBlind (ok : Bool) : ReceiveBlind (execDrvResp ok) := by
  intro s v
  cases hs : s.txState with
  | idle => rw [execDrvResp_of_idle hs, execDrvResp_of_idle (by exact hs)]; rfl
  | sending =>
    cases ok with
    | true => rw [execDrvResp_true hs, execDrvResp_true (by exact hs), answerOk_receiveBlind]
    | false => rw [execDrvResp_false hs, execDrvResp_false (by exact hs)]; rfl

/-- Driving a stretch of a frame only where it is due, for a condition that does not read the receive side. -/
theorem driveWhere_receiveBlind {due : State → Prop} [DecidablePred due] {n : Nat}
    (hdue : ∀ s v : State, due (s.withReceiveOf v) ↔ due s) :
    ReceiveBlind fun s => if due s then answersOk n s else .fault .linePartNotDue := by
  intro s v
  by_cases h : due s
  · simp only [hdue, if_pos h]
    exact answersOk_receiveBlind n s v
  · simp only [hdue, if_neg h, andThen]

theorem TransmitMeaning.receiveBlind {f : State → Answer} (hf : TransmitMeaning f) : ReceiveBlind f := by
  cases hf with
  | transmit proto plv blv rep pl bl code => exact transmit_receiveBlind proto plv blv rep pl bl code
  | drvResp => exact execDrvResp_receiveBlind _
  | pair p =>
    exact driveWhere_receiveBlind (due := fun s => s.txState = .sending ∧ pairDue s.tx = some p) fun _ _ => Iff.rfl
  | group g =>
    exact driveWhere_receiveBlind (due := fun s => s.txState = .sending ∧ groupDue s.tx = some g) fun _ _ => Iff.rfl

/-- Settles O60: in either order the transmit side's answer comes out with the edge's receive side put on it. -/
theorem transmitAndReceiveCommute : Obligations.TransmitAndReceiveCommute := by
  intro i ts s hrx hreset
  have hi := exec_transmitMeaning hrx hreset
  have edgeFirst : andThen (exec (.rxEdge ts) s) (exec i) =
      andThen (exec i s) fun t => .next (t.withReceiveOf (rxEdge ts s).1) := by
    rw [exec_rxEdge, andThen, rxEdge_eq_withReceiveOf, hi.receiveBlind]; rfl
  rw [edgeFirst]
  cases h : exec i s with
  | next t =>
    obtain ⟨hpt, -⟩ := hi.keeps h
    rw [andThen, andThen, exec_rxEdge, ← rxEdge_withReceiveOf ts hpt, hi.withReceiveOf_self h]
  | fault r => rfl
  | refused r => rfl

/-! ## What a step can do -/

theorem step_of_rejected {s : State} {w : CmdWord} {ws : List CmdWord} {r : Reject} (hin : s.input = w :: ws)
    (hd : decode w = .rejected r) : step s = .next (State.markRefused { s with input := ws } r) := by
  rw [step, takeWord_of_input_cons hin]
  simp only [hd]

/-- To show something of the state a step answers: show it of the state kept, of a mark set, and of what each of the four
commands answers (R75, R90, R258). -/
theorem step_next_elim {P : State → Prop} {s t : State} (h : step s = .next t) (keep : P s)
    (mark : ∀ ws r, P (State.markRefused { s with input := ws } r))
    (txSend : ∀ ws proto plv blv rep pl bl code,
      transmit proto plv blv rep pl bl code { s with input := ws } = .next t → P t)
    (drvResp : ∀ ws ok, execDrvResp ok { s with input := ws } = .next t → P t)
    (edge : ∀ ws ts, P (rxEdge ts { s with input := ws }).1)
    (reset : ∀ ws, P (State.hardReset { s with input := ws })) : P t := by
  obtain ⟨-, h⟩ | ⟨w, ws, -, ⟨i, hd, h⟩ | ⟨r, -, h⟩⟩ := step_cases h
  · cases h; exact keep
  · obtain ⟨_, _, _, _, _, _, _, rfl⟩ | ⟨ok, rfl⟩ | ⟨ts, rfl⟩ | rfl := decode_instr_cases hd
    · exact txSend ws _ _ _ _ _ _ _ h.symm
    · exact drvResp ws ok h.symm
    · cases h; exact edge ws ts
    · cases h; exact reset ws
  · cases h; exact mark ws r

/-- A refusal other than that of an incomplete word, which no step meets, sets the refusal mark. -/
theorem markRefused_refusal (s : State) {r : Reject} (hr : r ≠ .incompleteWord) :
    (s.markRefused r).marks.refusal = true := by
  cases r with
  | reservedOpcode => rfl
  | reservedField => exact Bool.or_true _
  | incompleteWord => exact absurd rfl hr

/-- Settles O8: the step of a rejected word marks the rejection, which is one of the two reserved ones. -/
theorem reservedWordOnlySetsRefusalMark : Obligations.ReservedWordOnlySetsRefusalMark := by
  intro s w ws hin
  refine ⟨step_of_rejected hin, step_of_rejected hin, fun t h hno => ?_⟩
  cases hd : decode w with
  | instr i => exact absurd hd (hno i)
  | rejected r =>
    rw [step_of_rejected hin hd] at h
    cases h
    exact markRefused_refusal _ fun hr => decode_ne_incomplete w (hr ▸ hd)

/-! ## The logs and the marks -/

/-- The drive log and the event log of `t` are those of `s` with at most one entry more, and the marks of `s` stand in
`t` (R32, R33). -/
structure GrowsTo (s t : State) : Prop where
  drive : t.driveLog = s.driveLog ∨ ∃ op, t.driveLog = s.driveLog ++ [op]
  event : t.eventLog = s.eventLog ∨ ∃ e, t.eventLog = s.eventLog ++ [e]
  overlap : s.marks.txOverlap = true → t.marks.txOverlap = true
  refusal : s.marks.refusal = true → t.marks.refusal = true

theorem unmarked_eq_false_iff (s : State) :
    s.unmarked = false ↔ s.marks.txOverlap = true ∨ s.marks.refusal = true := by
  simp only [State.unmarked, Bool.and_eq_false_iff, Bool.not_eq_false']

theorem GrowsTo.unmarked {s t : State} (h : GrowsTo s t) (hs : s.unmarked = false) : t.unmarked = false :=
  (unmarked_eq_false_iff t).2 (((unmarked_eq_false_iff s).1 hs).imp h.overlap h.refusal)

/-- Taking a word touches no log and no mark. -/
theorem GrowsTo.of_taken {s t : State} {ws : List CmdWord} (h : GrowsTo { s with input := ws } t) : GrowsTo s t :=
  ⟨h.drive, h.event, h.overlap, h.refusal⟩

theorem GrowsTo.of_eq {s t : State} (hd : t.driveLog = s.driveLog) (he : t.eventLog = s.eventLog)
    (hm : t.marks = s.marks) : GrowsTo s t :=
  ⟨.inl hd, .inl he, fun h => hm ▸ h, fun h => hm ▸ h⟩

theorem GrowsTo.of_drive {s t : State} {op : DriveOp} (hd : t.driveLog = s.driveLog ++ [op])
    (he : t.eventLog = s.eventLog) (hm : t.marks = s.marks) : GrowsTo s t :=
  ⟨.inr ⟨op, hd⟩, .inl he, fun h => hm ▸ h, fun h => hm ▸ h⟩

theorem markRefused_growsTo (s : State) (r : Reject) : GrowsTo s (s.markRefused r) := by
  refine ⟨.inl (by simp), .inl (by simp), by simp, fun h => ?_⟩
  by_cases hr : r = .incompleteWord
  · rw [hr]; exact h
  · exact markRefused_refusal s hr

theorem transmit_growsTo {proto : ProtoIdx} {plv blv : Bool} {rep : RepeatCount} {pl : PulseLen} {bl : BitLen}
    {code : Code} {s t : State} (h : transmit proto plv blv rep pl bl code s = .next t) : GrowsTo s t := by
  obtain ⟨-, e⟩ | ⟨-, -, e⟩ | ⟨-, -, -, e⟩ | ⟨-, -, prof, -, e⟩ := transmit_cases proto plv blv rep pl bl code s <;>
    rw [e] at h <;> cases h
  · exact ⟨.inl rfl, .inl rfl, fun _ => rfl, id⟩
  · exact .of_eq rfl rfl rfl
  · exact .of_eq rfl rfl rfl
  · exact .of_drive rfl rfl rfl

theorem execDrvResp_growsTo {ok : Bool} {s t : State} (h : execDrvResp ok s = .next t) : GrowsTo s t := by
  obtain ⟨-, ⟨-, h⟩ | ⟨-, rfl⟩⟩ := execDrvResp_cases h
  · obtain ⟨f, cur, -, -, ⟨-, rfl⟩ | ⟨-, nxt, -, rfl⟩⟩ := answerOk_cases h
    · exact .of_eq rfl rfl rfl
    · exact .of_drive rfl rfl rfl
  · exact .of_eq rfl rfl rfl

theorem rxEdge_eventLog (ts : Stamp) (s : State) :
    (rxEdge ts s).1.eventLog = s.eventLog ∨ ∃ e, (rxEdge ts s).1.eventLog = s.eventLog ++ [e] := by
  obtain ⟨-, e⟩ | ⟨-, -, e⟩ | ⟨-, -, e⟩ := rxEdge_cases ts s <;> rw [e]
  · obtain hd | ⟨p, m, -, -, hd⟩ := decodeAtBoundary_state (s.setLastTs ts) <;> rw [hd]
    · exact .inl rfl
    · exact .inr ⟨_, rfl⟩
  · exact .inl rfl
  · exact .inl rfl

theorem rxEdge_growsTo (ts : Stamp) (s : State) : GrowsTo s (rxEdge ts s).1 := by
  refine ⟨.inl ?_, rxEdge_eventLog ts s, ?_, ?_⟩ <;> rw [rxEdge_eq_withReceiveOf]
  · rfl
  · exact id
  · exact id

/-- Settles O10: each command, a mark and the kept state grow the logs by at most one entry and clear no mark. -/
theorem observationsOnlyGrow : Obligations.ObservationsOnlyGrow := by
  intro s t h
  have grows : GrowsTo s t := by
    refine step_next_elim h (.of_eq rfl rfl rfl) (fun ws r => ?_) (fun ws _ _ _ _ _ _ _ h => ?_) (fun ws ok h => ?_)
      (fun ws ts => ?_) fun ws => .of_eq rfl rfl rfl
    · exact (markRefused_growsTo _ r).of_taken
    · exact (transmit_growsTo h).of_taken
    · exact (execDrvResp_growsTo h).of_taken
    · exact (rxEdge_growsTo ts _).of_taken
  exact ⟨grows.drive, grows.event, grows.overlap, grows.refusal, grows.unmarked⟩

/-! ## The receive invariant -/

theorem State.RxInv.congr {s t : State} (h : s.RxInv) (hc : t.rxCount = s.rxCount) (hb : t.rxb = s.rxb) : t.RxInv := by
  unfold State.RxInv
  rw [hc, hb]
  exact h

theorem startBuffer_rxInv (s : State) (d : Dur) : (s.startBuffer d).RxInv := by
  have entry (k : Fin rxCapacity) (hk : 1 ≤ k.val) : (s.startBuffer d).rxb[k] = 0 := by
    rw [startBuffer_getElem, if_neg (by omega)]
  refine ⟨by simp, fun k hk => entry k (by simpa using hk), fun k hk => ?_⟩
  rw [entry k hk]
  exact Nat.zero_le _

theorem State.RxInv.appendEdge {s : State} {d : Dur} (h : s.RxInv) (hd : d.toNat ≤ 2000) (hn : s.rxCount.toNat < 256) :
    (s.appendEdge d).RxInv := by
  obtain ⟨-, hzero, hbound⟩ := h
  have hcount : (s.appendEdge d).rxCount.toNat = s.rxCount.toNat + 1 := by
    rw [State.appendEdge_rxCount, BitVec.toNat_add]; simp; omega
  refine ⟨by omega, fun k hk => ?_, fun k hk => ?_⟩ <;> rw [appendEdge_getElem]
  · rw [if_neg (by omega)]
    exact hzero k (by omega)
  · split
    · exact hd
    · exact hbound k hk

theorem hardReset_rxInv (s : State) : s.hardReset.RxInv :=
  (init_rxInv s.pt).congr rfl rfl

theorem State.RxInv.rxEdge {s : State} (h : s.RxInv) (ts : Stamp) : (rxEdge ts s).1.RxInv := by
  obtain ⟨-, e⟩ | ⟨-, -, e⟩ | ⟨hd, hn, e⟩ := rxEdge_cases ts s <;> rw [e]
  · exact startBuffer_rxInv _ _
  · exact startBuffer_rxInv _ _
  · exact State.RxInv.appendEdge (s := s.setLastTs ts) h hd hn

theorem TransmitMeaning.keeps_rxInv {f : State → Answer} (hf : TransmitMeaning f) {s t : State} (hs : s.RxInv)
    (h : f s = .next t) : t.RxInv := by
  obtain ⟨-, -, hb, hc, -⟩ := hf.keeps h
  exact hs.congr hc hb

/-- Settles O55: an edge starts the buffer anew or appends a short duration, RESET clears it, and nothing else writes it. -/
theorem stepKeepsReceiveInvariant : Obligations.StepKeepsReceiveInvariant := by
  intro s t hs h
  refine step_next_elim h hs (fun ws r => ?_) (fun ws _ _ _ _ _ _ _ h => ?_) (fun ws ok h => ?_) (fun ws ts => ?_)
    fun ws => hardReset_rxInv _
  · exact hs.congr (State.markRefused_rxCount _ r) (State.markRefused_rxb _ r)
  · exact (TransmitMeaning.transmit ..).keeps_rxInv (s := { s with input := ws }) hs h
  · exact (TransmitMeaning.drvResp ok).keeps_rxInv (s := { s with input := ws }) hs h
  · exact State.RxInv.rxEdge (s := { s with input := ws }) hs ts

/-! ## The transmit invariant -/

theorem State.TxInv.markRefused {s : State} (h : s.TxInv) (r : Reject) : (s.markRefused r).TxInv := by
  cases r <;> exact h

theorem State.TxInv.rxEdge {s : State} (h : s.TxInv) (ts : Stamp) : (rxEdge ts s).1.TxInv := by
  rw [rxEdge_eq_withReceiveOf]
  exact h

/-- A send that has just begun stands at op 0 of its frame (R130). -/
theorem beginSend_txInv {proto : ProtoIdx} {prof : Profile} {rep : RepeatCount} {s : State}
    (hl : lookup s.pt proto = some prof) (hr : rep ≠ 0) (plv blv : Bool) (pl : PulseLen) (bl : BitLen) (code : Code) :
    ((s.beginSend (sendRegs prof proto plv blv rep pl bl code)).emitDrive
      ⟨.H, unitDur prof.syncHigh (pulseInEffect prof plv pl)⟩).TxInv := by
  have hrep : 0 < rep.toNat := Nat.pos_of_ne_zero fun h => hr (BitVec.eq_of_toNat_eq h)
  have hw : bitlen1 code.toNat ≤ (BitVec.ofNat 8 (dataWidth code blv bl)).toNat := by
    rw [dataWidth_toNat]; exact bitlen1_le_dataWidth code blv bl
  exact ⟨by simp, by simp, fun _ => ⟨prof, hl, hw, Nat.succ_pos _, hrep, (frame_zero ..).symm, by simp⟩⟩

theorem State.TxInv.transmit {proto : ProtoIdx} {plv blv : Bool} {rep : RepeatCount} {pl : PulseLen} {bl : BitLen}
    {code : Code} {s t : State} (hs : s.TxInv) (h : transmit proto plv blv rep pl bl code s = .next t) : t.TxInv := by
  have idle : s.txState = .idle → s.outstanding = none := hs.2.1
  obtain ⟨-, e⟩ | ⟨hi, -, e⟩ | ⟨hi, -, -, e⟩ | ⟨-, hr, prof, hl, e⟩ := transmit_cases proto plv blv rep pl bl code s <;>
    rw [e] at h <;> cases h
  · exact hs
  · exact txInv_of_idle hi nofun (idle hi)
  · exact txInv_of_idle hi nofun (idle hi)
  · exact beginSend_txInv hl hr plv blv pl bl code

/-- The position after an op inside the send is inside the send, unless the send is over (R136). -/
theorem nextPosition_inside {n : Nat} {t : TxRegs} (hn : n ≤ 1026) (hop : t.op.toNat < n)
    (hrep : t.rep.toNat < t.r.toNat) (hne : (nextPosition n t).rep ≠ t.r) :
    (nextPosition n t).op.toNat < n ∧ (nextPosition n t).rep.toNat < t.r.toNat := by
  by_cases hlast : t.op.toNat + 1 = n
  · rw [nextPosition_last hn hlast] at hne ⊢
    have hsucc : (t.rep + 1).toNat = t.rep.toNat + 1 := by
      have := t.r.isLt
      rw [BitVec.toNat_add]; simp; omega
    have hne' : (t.rep + 1).toNat ≠ t.r.toNat := fun h => hne (BitVec.eq_of_toNat_eq h)
    exact ⟨Nat.zero_lt_of_lt hop, by dsimp only; omega⟩
  · have hsucc : (t.op + 1).toNat = t.op.toNat + 1 := op_succ_toNat (by omega)
    rw [nextPosition_mid hn (by omega)]
    exact ⟨by dsimp only; omega, hrep⟩

theorem State.TxInv.answerOk {s t : State} (hs : s.TxInv) (hsend : s.txState = .sending) (h : answerOk s = .next t) :
    t.TxInv := by
  obtain ⟨hbusy, -, hpos⟩ := hs
  obtain ⟨prof, hl, hw, hop, hrep, -, -⟩ := hpos hsend
  obtain ⟨f, cur, hf, -, ⟨-, rfl⟩ | ⟨hne, nxt, hnxt, rfl⟩⟩ := answerOk_cases h
  · exact txInv_of_idle rfl nofun rfl
  · obtain ⟨hlen, hmax⟩ := currentFrame_length hf
    obtain ⟨hop', hrep'⟩ := nextPosition_inside hmax (hlen ▸ hop) hrep hne
    rw [currentFrame_of_lookup hl] at hf
    cases hf
    refine ⟨hbusy, fun hi => ?_, fun _ => ⟨prof, ?_, ?_, ?_, ?_, ?_, ?_⟩⟩
    · exact absurd (hsend.symm.trans hi) nofun
    · simpa using hl
    · simpa using hw
    · simpa using hop'
    · simpa using hrep'
    · simpa using hnxt.symm
    · simp

theorem State.TxInv.execDrvResp {ok : Bool} {s t : State} (hs : s.TxInv) (h : execDrvResp ok s = .next t) : t.TxInv := by
  obtain ⟨hsend, ⟨-, h⟩ | ⟨-, rfl⟩⟩ := execDrvResp_cases h
  · exact hs.answerOk hsend h
  · exact txInv_of_idle rfl nofun rfl

/-- Settles O54: a send begins at its first op, an answer moves it inside the send or ends it, and nothing else touches
the transmit state but RESET, which leaves the block idle. -/
theorem stepKeepsTransmitInvariant : Obligations.StepKeepsTransmitInvariant := by
  intro s t hs h
  have taken (ws : List CmdWord) : State.TxInv { s with input := ws } := hs
  exact step_next_elim h hs (fun ws r => (taken ws).markRefused r) (fun ws _ _ _ _ _ _ _ h => (taken ws).transmit h)
    (fun ws _ h => (taken ws).execDrvResp h) (fun ws ts => (taken ws).rxEdge ts) fun _ => txInv_of_idle rfl nofun rfl

/-! ## DRV_RESP and RESET -/

/-- Settles O19: the position moves by one inside the frame, and the repetition stays. -/
theorem drvRespOkPresentsNextOp : Obligations.DrvRespOkPresentsNextOp := by
  intro s prof cur nxt hs hl hcur hnxt hrep
  have hf := currentFrame_of_lookup hl
  obtain ⟨-, hmax⟩ := currentFrame_length hf
  have hlt : s.tx.op.toNat + 1 < (frame s.tx.code s.tx.w.toNat prof s.tx.pl).length := by
    by_contra hge
    rw [List.getElem?_eq_none (by omega)] at hnxt
    cases hnxt
  have hpos := nextPosition_mid (t := s.tx) hmax hlt
  have hop : (s.tx.op + 1).toNat = s.tx.op.toNat + 1 := op_succ_toNat (by omega)
  calc execDrvResp true s
    _ = answerOk s := execDrvResp_true hs
    _ = _ := answerOk_advance hf hcur (by rw [hpos]; exact hrep) (by rw [hpos]; exact hop ▸ hnxt)
    _ = _ := by rw [hpos]; rfl

/-- Settles O21: the last op of a frame is high, and the position after it is that of the repetition count. -/
theorem drvRespOkEndsSend : Obligations.DrvRespOkEndsSend := by
  intro s prof hs hl hop hrep
  have hf := currentFrame_of_lookup hl
  obtain ⟨hlen, hmax⟩ := currentFrame_length hf
  have hcur : (frame s.tx.code s.tx.w.toNat prof s.tx.pl)[s.tx.op.toNat]? =
      some ⟨.H, unitDur prof.syncHigh s.tx.pl⟩ := by
    rw [show s.tx.op.toNat = 4 * s.tx.w.toNat + 5 by omega, frame_last]
  have hpos := nextPosition_last (t := s.tx) hmax (hop.trans hlen.symm)
  refine ⟨freeTxRegs s.freeIdx, s.freeIdx + 7, ?_⟩
  calc execDrvResp true s
    _ = answerOk s := execDrvResp_true hs
    _ = _ := answerOk_end hf hcur (by rw [hpos]; exact hrep)

/-- Settles O22: the free values are those `dropSend` and `freeLine` draw. -/
theorem drvRespFailEndsSend : Obligations.DrvRespFailEndsSend :=
  fun _ hs => ⟨_, _, _, execDrvResp_false hs⟩

/-- Settles O52: the free values are those `dropSend` draws, and the block is idle. -/
theorem resetClearsBlock : Obligations.ResetClearsBlock :=
  fun s => ⟨_, _, _, s.hardReset, init_rxb_getElem s.pt, rfl, rfl, execDrvResp_of_idle rfl⟩

end Sys2Proof.Machine
end

section
/-! PROOFS of 30_encoding.md. A command word and its instruction spell each other (R70 to R78, R90), SEND is a TX_SEND word
(R140), the line-code rows drive their stretches of a frame (R79 to R84, R125 to R127, R136), every event keeps to its
record's bounds (R86, R214), and only a stray DRV_RESP stops (R139, R250). -/

namespace Sys2Proof

/-! ## The fields of a word as numbers -/

theorem getLsbD_eq_iff (w : CmdWord) (k : Nat) (b : Bool) : w.getLsbD k = b ↔ w.toNat / 2 ^ k % 2 = b.toNat := by
  rw [getLsbD_eq_decide]
  cases b <;> simp

/-- A word is the TX_SEND word of its fields (R73). -/
theorem eq_encodeTxSend_iff {w : CmdWord} {proto : ProtoIdx} {plv blv : Bool} {rep : RepeatCount} {pl : PulseLen}
    {bl : BitLen} {code : Code} :
    w = encodeTxSend proto plv blv rep pl bl code ↔
      opcodeOf w = 0x1 ∧ bits w 14 2 = 0 ∧ bits w 4 8 = proto ∧ w.getLsbD 12 = plv ∧ w.getLsbD 13 = blv ∧
        bits w 16 16 = rep ∧ bits w 32 24 = pl ∧ bits w 56 8 = bl ∧ bits w 64 64 = code := by
  have hplv := plv.toNat_lt
  have hblv := blv.toNat_lt
  simp only [opcodeOf, getLsbD_eq_iff, ← BitVec.toNat_inj, bits_toNat, BitVec.reduceToNat,
    encodeTxSend, BitVec.toNat_ofNat]
  omega

theorem eq_encodeDrvResp_iff {w : CmdWord} {ok : Bool} :
    w = encodeDrvResp ok ↔ opcodeOf w = 0x2 ∧ bits w 5 123 = 0 ∧ w.getLsbD 4 = ok := by
  have hok := ok.toNat_lt
  simp only [opcodeOf, getLsbD_eq_iff, ← BitVec.toNat_inj, bits_toNat, BitVec.reduceToNat,
    encodeDrvResp, BitVec.toNat_ofNat]
  omega

theorem eq_encodeRxEdge_iff {w : CmdWord} {ts : Stamp} :
    w = encodeRxEdge ts ↔ opcodeOf w = 0x3 ∧ (bits w 4 28 = 0 ∧ bits w 64 64 = 0) ∧ bits w 32 32 = ts := by
  simp only [opcodeOf, ← BitVec.toNat_inj, bits_toNat, BitVec.reduceToNat, encodeRxEdge, BitVec.toNat_ofNat]
  omega

theorem eq_resetWord_iff {w : CmdWord} : w = 0xF ↔ opcodeOf w = 0xF ∧ bits w 4 124 = 0 := by
  simp only [opcodeOf, ← BitVec.toNat_inj, bits_toNat, BitVec.reduceToNat]
  omega

/-! ## What a word decodes to -/

section ByOpcode
variable {w : CmdWord}

theorem decode_of_opcode_txSend (h : opcodeOf w = 0x1) : decode w = decodeTxSend w := by
  rw [decode, if_pos h]

theorem decode_of_opcode_drvResp (h : opcodeOf w = 0x2) : decode w = decodeDrvResp w := by
  rw [decode, h, if_neg (by decide), if_pos rfl]

theorem decode_of_opcode_rxEdge (h : opcodeOf w = 0x3) : decode w = decodeRxEdge w := by
  rw [decode, h, if_neg (by decide), if_neg (by decide), if_pos rfl]

theorem decode_of_opcode_reset (h : opcodeOf w = 0xF) : decode w = decodeReset w := by
  rw [decode, h, if_neg (by decide), if_neg (by decide), if_neg (by decide), if_pos rfl]

end ByOpcode

/-- Decoding goes by the opcode (R72, R90). -/
theorem decode_cases (w : CmdWord) :
    (opcodeOf w = 0x1 ∧ decode w = decodeTxSend w) ∨ (opcodeOf w = 0x2 ∧ decode w = decodeDrvResp w) ∨
    (opcodeOf w = 0x3 ∧ decode w = decodeRxEdge w) ∨ (opcodeOf w = 0xF ∧ decode w = decodeReset w) ∨
    ((opcodeOf w ≠ 0x1 ∧ opcodeOf w ≠ 0x2 ∧ opcodeOf w ≠ 0x3 ∧ opcodeOf w ≠ 0xF) ∧
      decode w = .rejected .reservedOpcode) := by
  by_cases h1 : opcodeOf w = 0x1
  · exact .inl ⟨h1, decode_of_opcode_txSend h1⟩
  by_cases h2 : opcodeOf w = 0x2
  · exact .inr (.inl ⟨h2, decode_of_opcode_drvResp h2⟩)
  by_cases h3 : opcodeOf w = 0x3
  · exact .inr (.inr (.inl ⟨h3, decode_of_opcode_rxEdge h3⟩))
  by_cases h4 : opcodeOf w = 0xF
  · exact .inr (.inr (.inr (.inl ⟨h4, decode_of_opcode_reset h4⟩)))
  · exact .inr (.inr (.inr (.inr ⟨⟨h1, h2, h3, h4⟩, by rw [decode, if_neg h1, if_neg h2, if_neg h3, if_neg h4]⟩)))

theorem decode_encodeTxSend (proto : ProtoIdx) (plv blv : Bool) (rep : RepeatCount) (pl : PulseLen) (bl : BitLen)
    (code : Code) :
    decode (encodeTxSend proto plv blv rep pl bl code) = .instr (.txSend proto plv blv rep pl bl code) := by
  obtain ⟨ho, hz, hproto, hplv, hblv, hrep, hpl, hbl, hcode⟩ :=
    eq_encodeTxSend_iff.1 (Eq.refl (encodeTxSend proto plv blv rep pl bl code))
  rw [decode_of_opcode_txSend ho, decodeTxSend, if_pos hz, hproto, hplv, hblv, hrep, hpl, hbl, hcode]

theorem decode_encodeDrvResp (ok : Bool) : decode (encodeDrvResp ok) = .instr (.drvResp ok) := by
  obtain ⟨ho, hz, hok⟩ := eq_encodeDrvResp_iff.1 (Eq.refl (encodeDrvResp ok))
  rw [decode_of_opcode_drvResp ho, decodeDrvResp, if_pos hz, hok]

theorem decode_encodeRxEdge (ts : Stamp) : decode (encodeRxEdge ts) = .instr (.rxEdge ts) := by
  obtain ⟨ho, hz, hts⟩ := eq_encodeRxEdge_iff.1 (Eq.refl (encodeRxEdge ts))
  rw [decode_of_opcode_rxEdge ho, decodeRxEdge, if_pos hz, hts]

/-- A word decodes to an instruction exactly when it is the command word of that instruction (R70 to R77, R90). -/
theorem decode_eq_instr_iff {w : CmdWord} {i : Instr} :
    decode w = .instr i ↔ i.wellFormed = true ∧ encode i = some w := by
  constructor
  · intro h
    obtain ⟨ho, e⟩ | ⟨ho, e⟩ | ⟨ho, e⟩ | ⟨ho, e⟩ | ⟨-, e⟩ := decode_cases w <;> rw [e] at h
    · rw [decodeTxSend, ite_eq_iff] at h
      obtain ⟨hz, h⟩ | ⟨-, h⟩ := h <;> cases h
      exact ⟨rfl, congrArg some (eq_encodeTxSend_iff.2 ⟨ho, hz, rfl, rfl, rfl, rfl, rfl, rfl, rfl⟩).symm⟩
    · rw [decodeDrvResp, ite_eq_iff] at h
      obtain ⟨hz, h⟩ | ⟨-, h⟩ := h <;> cases h
      exact ⟨rfl, congrArg some (eq_encodeDrvResp_iff.2 ⟨ho, hz, rfl⟩).symm⟩
    · rw [decodeRxEdge, ite_eq_iff] at h
      obtain ⟨hz, h⟩ | ⟨-, h⟩ := h <;> cases h
      exact ⟨rfl, congrArg some (eq_encodeRxEdge_iff.2 ⟨ho, hz, rfl⟩).symm⟩
    · rw [decodeReset, ite_eq_iff] at h
      obtain ⟨hz, h⟩ | ⟨-, h⟩ := h <;> cases h
      exact ⟨rfl, congrArg some (eq_resetWord_iff.2 ⟨ho, hz⟩).symm⟩
    · cases h
  · rintro ⟨hwf, he⟩
    cases i with
    | txSend => cases he; exact decode_encodeTxSend ..
    | drvResp => cases he; exact decode_encodeDrvResp _
    | rxEdge => cases he; exact decode_encodeRxEdge _
    | reset => cases he; rfl
    | send => cases hwf
    | lineSyncOpen | lineSym1 | lineSym0 | lineCloseMark | symbitsData0 | symbitsData1 | symbitsFraming => cases he

/-- Settles O2: a well-formed instruction has a command word, and that word decodes to it. -/
theorem encodedCommandsDecodeBack : Obligations.EncodedCommandsDecodeBack := by
  intro i hwf
  obtain ⟨w, hw⟩ : ∃ w, encode i = some w := by
    cases i with
    | txSend | drvResp | rxEdge | reset | send => exact ⟨_, rfl⟩
    | lineSyncOpen | lineSym1 | lineSym0 | lineCloseMark | symbitsData0 | symbitsData1 | symbitsFraming => cases hwf
  exact ⟨w, hw, decode_eq_instr_iff.2 ⟨hwf, hw⟩⟩

/-- Settles O3: every field of a word that decodes is a field of the instruction or a reserved one that is 0. -/
theorem decodedWordsEncodeBack : Obligations.DecodedWordsEncodeBack :=
  fun _ _ => decode_eq_instr_iff.1

theorem decode_eq_instr_iff_of_wellFormed {w : CmdWord} {i : Instr} (hwf : i.wellFormed = true) :
    decode w = .instr i ↔ some w = encode i := by
  rw [decode_eq_instr_iff, and_iff_right hwf, eq_comm]

theorem decode_eq_txSend_iff {w : CmdWord} {proto : ProtoIdx} {plv blv : Bool} {rep : RepeatCount} {pl : PulseLen}
    {bl : BitLen} {code : Code} :
    decode w = .instr (.txSend proto plv blv rep pl bl code) ↔ w = encodeTxSend proto plv blv rep pl bl code :=
  (decode_eq_instr_iff_of_wellFormed rfl).trans Option.some_inj

theorem decode_eq_drvResp_iff {w : CmdWord} {ok : Bool} : decode w = .instr (.drvResp ok) ↔ w = encodeDrvResp ok :=
  (decode_eq_instr_iff_of_wellFormed rfl).trans Option.some_inj

theorem decode_eq_rxEdge_iff {w : CmdWord} {ts : Stamp} : decode w = .instr (.rxEdge ts) ↔ w = encodeRxEdge ts :=
  (decode_eq_instr_iff_of_wellFormed rfl).trans Option.some_inj

theorem decode_eq_reset_iff {w : CmdWord} : decode w = .instr .reset ↔ w = 0xF :=
  (decode_eq_instr_iff_of_wellFormed rfl).trans Option.some_inj

/-! ## What a word is rejected for -/

theorem decodeTxSend_eq_rejected_iff {w : CmdWord} {r : Reject} :
    decodeTxSend w = .rejected r ↔ r = .reservedField ∧ bits w 14 2 ≠ 0 := by
  rw [decodeTxSend, ite_eq_iff]
  simp [and_comm, eq_comm]

theorem decodeDrvResp_eq_rejected_iff {w : CmdWord} {r : Reject} :
    decodeDrvResp w = .rejected r ↔ r = .reservedField ∧ bits w 5 123 ≠ 0 := by
  rw [decodeDrvResp, ite_eq_iff]
  simp [and_comm, eq_comm]

theorem decodeRxEdge_eq_rejected_iff {w : CmdWord} {r : Reject} :
    decodeRxEdge w = .rejected r ↔ r = .reservedField ∧ (bits w 4 28 ≠ 0 ∨ bits w 64 64 ≠ 0) := by
  rw [decodeRxEdge, ite_eq_iff, not_and_or]
  simp [and_comm, eq_comm]

theorem decodeReset_eq_rejected_iff {w : CmdWord} {r : Reject} :
    decodeReset w = .rejected r ↔ r = .reservedField ∧ bits w 4 124 ≠ 0 := by
  rw [decodeReset, ite_eq_iff]
  simp [and_comm, eq_comm]

/-- Settles O4: the reserved bits of the one format that the opcode selects, or no format at all. -/
theorem decodeRejectsExactlyReserved : Obligations.DecodeRejectsExactlyReserved := by
  intro w
  obtain ⟨ho, e⟩ | ⟨ho, e⟩ | ⟨ho, e⟩ | ⟨ho, e⟩ | ⟨ho, e⟩ := decode_cases w <;> rw [e]
  · simp [ho, decodeTxSend_eq_rejected_iff]
  · simp [ho, decodeDrvResp_eq_rejected_iff]
  · simp [ho, decodeRxEdge_eq_rejected_iff]
  · simp [ho, decodeReset_eq_rejected_iff]
  · exact ⟨⟨fun _ => ho, fun _ => rfl⟩, ⟨nofun, by tauto⟩, nofun⟩

/-! ## Match and mask -/

/-- A mask keeps a field whose bits it has all set. -/
theorem bits_and_of_allOnes {w m : CmdWord} {lo width : Nat} (h : bits m lo width = BitVec.allOnes width) :
    bits (w &&& m) lo width = bits w lo width := by
  rw [bits, BitVec.extractLsb'_and, ← bits, ← bits, h, BitVec.and_allOnes]

/-- A mask clears a field that it has no bit of. -/
theorem bits_and_of_zero {w m : CmdWord} {lo width : Nat} (h : bits m lo width = 0) :
    bits (w &&& m) lo width = 0 := by
  rw [bits, BitVec.extractLsb'_and, ← bits, ← bits, h]
  exact BitVec.and_zero

theorem and_txSendMask_iff (w : CmdWord) : w &&& 0xC00F = 0x1 ↔ opcodeOf w = 0x1 ∧ bits w 14 2 = 0 := by
  have fields (v : CmdWord) :
      v = 0x1 ↔ bits v 0 4 = 0x1 ∧ bits v 4 10 = 0 ∧ bits v 14 2 = 0 ∧ bits v 16 112 = 0 := by
    simp only [← BitVec.toNat_inj, bits_toNat, BitVec.reduceToNat]; omega
  rw [fields, bits_and_of_allOnes rfl, bits_and_of_zero rfl, bits_and_of_allOnes rfl, bits_and_of_zero rfl]
  simp [opcodeOf]

theorem and_drvRespMask_iff (w : CmdWord) :
    w &&& 0xFFFFFFFFFFFFFFFFFFFFFFFFFFFFFFEF = 0x2 ↔ opcodeOf w = 0x2 ∧ bits w 5 123 = 0 := by
  have fields (v : CmdWord) : v = 0x2 ↔ bits v 0 4 = 0x2 ∧ bits v 4 1 = 0 ∧ bits v 5 123 = 0 := by
    simp only [← BitVec.toNat_inj, bits_toNat, BitVec.reduceToNat]; omega
  rw [fields, bits_and_of_allOnes rfl, bits_and_of_zero rfl, bits_and_of_allOnes rfl]
  simp [opcodeOf]

theorem and_rxEdgeMask_iff (w : CmdWord) :
    w &&& 0xFFFFFFFFFFFFFFFF00000000FFFFFFFF = 0x3 ↔ opcodeOf w = 0x3 ∧ bits w 4 28 = 0 ∧ bits w 64 64 = 0 := by
  have fields (v : CmdWord) :
      v = 0x3 ↔ bits v 0 4 = 0x3 ∧ bits v 4 28 = 0 ∧ bits v 32 32 = 0 ∧ bits v 64 64 = 0 := by
    simp only [← BitVec.toNat_inj, bits_toNat, BitVec.reduceToNat]; omega
  rw [fields, bits_and_of_allOnes rfl, bits_and_of_allOnes rfl, bits_and_of_zero rfl, bits_and_of_allOnes rfl]
  simp [opcodeOf]

/-- Settles O5: the words of a command are those with its opcode and its reserved bits 0, and the mask keeps those bits. -/
theorem matchAndMaskAgree : Obligations.MatchAndMaskAgree := by
  intro w
  rw [and_txSendMask_iff, and_drvRespMask_iff, and_rxEdgeMask_iff]
  refine ⟨?_, ?_, ?_, decode_eq_reset_iff⟩
  · simp [decode_eq_txSend_iff, eq_encodeTxSend_iff]
  · simp [decode_eq_drvResp_iff, eq_encodeDrvResp_iff]
  · simp [decode_eq_rxEdge_iff, eq_encodeRxEdge_iff]

/-! ## Bytes -/

/-- The bytes of a word from byte `j` on, read least significant first, spell the word's bits from `8 * j` on (R78). -/
theorem foldr_bytes (w : CmdWord) (n j : Nat) :
    ((List.range' j n).map fun k => w.extractLsb' (8 * k) 8).foldr (fun b acc => b.toNat + 256 * acc) 0 =
      w.toNat / 2 ^ (8 * j) % 2 ^ (8 * n) := by
  induction n generalizing j with
  | zero => simp [Nat.mod_one]
  | succ n ih =>
    have split := Nat.mod_mul (x := w.toNat / 2 ^ (8 * j)) (a := 2 ^ 8) (b := 2 ^ (8 * n))
    rw [Nat.div_div_eq_div_mul, ← pow_add, ← pow_add] at split
    rw [List.range'_succ, List.map_cons, List.foldr_cons, ih, BitVec.extractLsb'_toNat, Nat.shiftRight_eq_div_pow]
    exact (Nat.mul_succ 8 n ▸ Nat.add_comm 8 _ ▸ split).symm

theorem wordOfBytes_bytesOfWord (w : CmdWord) : wordOfBytes (bytesOfWord w) = w := by
  rw [wordOfBytes, bytesOfWord, List.range_eq_range', foldr_bytes]
  exact BitVec.eq_of_toNat_eq (by simp [Nat.mod_eq_of_lt w.isLt])

@[simp] theorem bytesOfWord_length (w : CmdWord) : (bytesOfWord w).length = 16 := by
  simp [bytesOfWord]

/-- Settles O6: the stream's first 16 bytes are the word's, and they spell the word. -/
theorem bytesCarryTheWord : Obligations.BytesCarryTheWord := by
  intro w rest
  refine ⟨bytesOfWord_length w, fun k hk => by simp [bytesOfWord, bits, hk], ?_⟩
  have htake : (bytesOfWord w ++ rest).take 16 = bytesOfWord w := List.take_left' (bytesOfWord_length w)
  have hdrop : (bytesOfWord w ++ rest).drop 16 = rest := List.drop_left' (bytesOfWord_length w)
  rw [decodeBytes, if_neg (by simp), htake, hdrop, wordOfBytes_bytesOfWord]

/-! ## Fixed words -/

/-- Settles O1: eight closed words, decoded by evaluation. -/
theorem knownWordsDecode : Obligations.KnownWordsDecode := by
  unfold Obligations.KnownWordsDecode
  decide

end Sys2Proof

namespace Sys2Proof.Machine

/-! ## SEND -/

/-- The PL and BL fields are read only where PLV and BLV say so (R73, R122, R123). -/
theorem transmit_without_overrides (proto : ProtoIdx) (rep : RepeatCount) (pl pl' : PulseLen) (bl bl' : BitLen)
    (code : Code) : transmit proto false false rep pl bl code = transmit proto false false rep pl' bl' code := rfl

/-- Settles O15: SEND is the TX_SEND with both fields ignored, and it is spelled as the TX_SEND word with both 0. -/
theorem sendIsTxSendWithoutOverrides : Obligations.SendIsTxSendWithoutOverrides :=
  ⟨fun code proto rep pl bl s => congrFun (transmit_without_overrides proto rep 0 pl 0 bl code) s,
    fun code proto rep => ⟨_, rfl, decode_encodeTxSend ..⟩, by decide⟩

/-! ## Answers inside a frame -/

/-- `s` standing `n` ops further on in the frame: the ops passed on the way and the one now outstanding are in the log,
and the line has the level `l` of the last op answered. -/
def State.movedOn (s : State) (n : BitVec 11) (l : Level) (passed : List DriveOp) (out : DriveOp) : State :=
  { s with
    txLine := l, tx := { s.tx with op := s.tx.op + n }, outstanding := some out,
    driveLog := s.driveLog ++ (passed ++ [out]) }

theorem State.movedOn_movedOn (s : State) (m n : BitVec 11) (l l' : Level) (ps qs : List DriveOp) (a b : DriveOp) :
    (s.movedOn m l ps a).movedOn n l' qs b = s.movedOn (m + n) l' (ps ++ a :: qs) b := by
  simp [State.movedOn, BitVec.add_assoc]

/-- The answer to an op that is not its frame's last (R136). -/
theorem answerOk_mid {s : State} {prof : Profile} {k : Nat} {cur nxt : DriveOp} (hs : s.txState = .sending)
    (hl : lookup s.pt s.tx.proto = some prof) (hrep : s.tx.rep ≠ s.tx.r) (hop : s.tx.op.toNat = k)
    (hcur : (frame s.tx.code s.tx.w.toNat prof s.tx.pl)[k]? = some cur)
    (hnxt : (frame s.tx.code s.tx.w.toNat prof s.tx.pl)[k + 1]? = some nxt) :
    answerOk s = .next (s.movedOn 1 cur.level [] nxt) := by
  subst hop
  exact (execDrvResp_true hs).symm.trans (drvRespOkPresentsNextOp s prof cur nxt hs hl hcur hnxt hrep)

/-- The op counter does not wrap at an op of the frame (R128). -/
theorem op_add_toNat {t : TxRegs} {k n : Nat} (hop : t.op.toNat = k) (h : k + n < 4 * t.w.toNat + 6) :
    (t.op + BitVec.ofNat 11 n).toNat = k + n := by
  have := t.w.isLt
  rw [BitVec.toNat_add, BitVec.toNat_ofNat]
  omega

/-- Two answers that drive a pair which is not its frame's last (R126, R127). -/
theorem answersOk_pair {s : State} {prof : Profile} {k : Nat} {p : LinePair} {a b nxt : DriveOp}
    (hs : s.txState = .sending) (hl : lookup s.pt s.tx.proto = some prof) (hrep : s.tx.rep ≠ s.tx.r)
    (hop : s.tx.op.toNat = 2 * k) (hp : (framePairs s.tx.code s.tx.w.toNat)[k]? = some p)
    (hops : pairOps prof s.tx.pl p = [a, b])
    (hnxt : (frame s.tx.code s.tx.w.toNat prof s.tx.pl)[2 * k + 2]? = some nxt) :
    answersOk 2 s = .next (s.movedOn 2 b.level [b] nxt) := by
  have ha : (frame s.tx.code s.tx.w.toNat prof s.tx.pl)[2 * k + 0]? = some a := by
    rw [frame_getElem? _ _ _ _ _ _ (by omega), hp, Option.bind_some, hops]; rfl
  have hb : (frame s.tx.code s.tx.w.toNat prof s.tx.pl)[2 * k + 1]? = some b := by
    rw [frame_getElem? _ _ _ _ _ _ (by omega), hp, Option.bind_some, hops]; rfl
  obtain ⟨hlt, -⟩ := List.getElem?_eq_some_iff.1 hb
  rw [frame_length] at hlt
  have first : answerOk s = .next (s.movedOn 1 a.level [] b) := answerOk_mid hs hl hrep hop ha hb
  have second : answerOk (s.movedOn 1 a.level [] b) = .next ((s.movedOn 1 a.level [] b).movedOn 1 b.level [] nxt) :=
    answerOk_mid hs hl hrep (op_add_toNat (t := s.tx) hop hlt) hb hnxt
  rw [answersOk, first, andThen, answersOk, second, State.movedOn_movedOn]
  rfl

/-- The two answers that drive the pair of symbol `k` (R126). -/
theorem answersOk_sym {s : State} {prof : Profile} {k : Nat} {b : Bool} {nxt : DriveOp}
    (hs : s.txState = .sending) (hl : lookup s.pt s.tx.proto = some prof) (hrep : s.tx.rep ≠ s.tx.r)
    (hop : s.tx.op.toNat = 2 + 2 * k) (hb : (symbols s.tx.code s.tx.w.toNat)[k]? = some b)
    (hnxt : (frame s.tx.code s.tx.w.toNat prof s.tx.pl)[4 + 2 * k]? = some nxt) :
    answersOk 2 s =
      .next (s.movedOn 2 .L [⟨.L, unitDur (if b then prof.oneLow else prof.zeroLow) s.tx.pl⟩] nxt) := by
  have hops : pairOps prof s.tx.pl (.sym b) =
      [⟨.H, unitDur (if b then prof.oneHigh else prof.zeroHigh) s.tx.pl⟩,
        ⟨.L, unitDur (if b then prof.oneLow else prof.zeroLow) s.tx.pl⟩] := by
    cases b <;> rfl
  exact answersOk_pair (k := k + 1) hs hl hrep (by omega) (framePairs_sym _ _ _ _ hb) hops
    (by rw [← hnxt]; congr 1; omega)

/-- Data bit `j` is symbols `1 + 2j` and `2 + 2j` (R80, R125). -/
theorem symbols_data {code : Code} {w j : Nat} (hj : j < w) {b : Bool} (hb : code.getLsbD (w - 1 - j) = b) :
    (symbols code w)[1 + 2 * j]? = some b ∧ (symbols code w)[2 + 2 * j]? = some (!b) := by
  have symbol (i : Nat) (hi : i < 2) : (symbols code w)[2 * j + i + 1]? = (expand b)[i]? := by
    rw [symbols, List.getElem?_cons_succ, flatMap_two_getElem? _ expand_length _ _ _ hi, dataBits_getElem? _ _ _ hj, hb]
    rfl
  rw [show 1 + 2 * j = 2 * j + 0 + 1 by omega, show 2 + 2 * j = 2 * j + 1 + 1 by omega, symbol 0 (by omega),
    symbol 1 (by omega)]
  cases b <;> exact ⟨rfl, rfl⟩

/-- The four answers that drive both pairs of data bit `j` (R80, R126). -/
theorem answersOk_data {s : State} {prof : Profile} {j : Nat} {b : Bool} {nxt : DriveOp}
    (hs : s.txState = .sending) (hl : lookup s.pt s.tx.proto = some prof) (hrep : s.tx.rep ≠ s.tx.r)
    (hj : j < s.tx.w.toNat) (hop : s.tx.op.toNat = 4 + 4 * j)
    (hb : s.tx.code.getLsbD (s.tx.w.toNat - 1 - j) = b)
    (hnxt : (frame s.tx.code s.tx.w.toNat prof s.tx.pl)[8 + 4 * j]? = some nxt) :
    answersOk 4 s = .next (s.movedOn 4 .L
      [⟨.L, unitDur (if b then prof.oneLow else prof.zeroLow) s.tx.pl⟩,
        ⟨.H, unitDur (if b then prof.zeroHigh else prof.oneHigh) s.tx.pl⟩,
        ⟨.L, unitDur (if b then prof.zeroLow else prof.oneLow) s.tx.pl⟩] nxt) := by
  obtain ⟨hfirst, hsecond⟩ := symbols_data hj hb
  have hmid : (frame s.tx.code s.tx.w.toNat prof s.tx.pl)[2 + 2 * (2 + 2 * j)]? =
      some ⟨.H, unitDur (if b then prof.zeroHigh else prof.oneHigh) s.tx.pl⟩ := by
    rw [(frame_sym hsecond).1]; cases b <;> rfl
  have first := answersOk_sym hs hl hrep (by omega) hfirst (by rw [← hmid]; congr 1; omega)
  have second (passed : List DriveOp) (out : DriveOp) :=
    answersOk_sym (s := s.movedOn 2 .L passed out) (k := 2 + 2 * j) hs hl hrep
      ((op_add_toNat (n := 2) hop (by omega)).trans (by omega)) hsecond
      (by rw [show 4 + 2 * (2 + 2 * j) = 8 + 4 * j by omega]; exact hnxt)
  rw [answersOk_add 2 2, first, andThen, second, State.movedOn_movedOn]
  cases b <;> rfl

/-- The answer to the last op of a frame that another follows (R136). -/
theorem answerOk_nextFrame {s : State} {prof : Profile} (hl : lookup s.pt s.tx.proto = some prof)
    (hop : s.tx.op.toNat = 4 * s.tx.w.toNat + 5) (hrep : s.tx.rep + 1 ≠ s.tx.r) :
    answerOk s = .next
      { s with
        txLine := .H, tx := { s.tx with op := 0, rep := s.tx.rep + 1 },
        outstanding := some ⟨.H, unitDur prof.syncHigh s.tx.pl⟩,
        driveLog := s.driveLog ++ [⟨.H, unitDur prof.syncHigh s.tx.pl⟩] } := by
  have hf := currentFrame_of_lookup hl
  obtain ⟨hlen, hmax⟩ := currentFrame_length hf
  have hpos := nextPosition_last (t := s.tx) hmax (by omega)
  rw [answerOk_advance hf (hop ▸ frame_last ..) (by rw [hpos]; exact hrep) (by rw [hpos]; exact frame_zero ..), hpos]
  rfl

/-! ## Where a stretch of a frame is due -/

theorem pairDue_of_op {t : TxRegs} {k : Nat} (h : t.op.toNat = 2 * k) :
    pairDue t = (framePairs t.code t.w.toNat)[k]? := by
  rw [pairDue, if_pos (by omega), h, Nat.mul_div_cancel_left k (by omega)]

theorem groupDue_framing {t : TxRegs} (h : t.op = 2) : groupDue t = some .framing := by
  rw [groupDue, if_pos (by rw [h]; rfl)]

theorem groupDue_data {t : TxRegs} {j : Nat} (hj : j < t.w.toNat) (h : t.op.toNat = 4 + 4 * j) :
    groupDue t = some (.data (t.code.getLsbD (t.w.toNat - 1 - j))) := by
  rw [groupDue, if_neg (by omega), if_pos (by omega), h, Nat.add_sub_cancel_left, Nat.mul_div_cancel_left j (by omega),
    dataBits_getElem? _ _ _ hj]
  rfl

theorem op_of_syncOpen_due {t : TxRegs} (h : pairDue t = some .syncOpen) : t.op = 0 :=
  BitVec.eq_of_toNat_eq (by simpa using pairDue_cases h)

theorem op_of_sym_due {t : TxRegs} {b : Bool} (h : pairDue t = some (.sym b)) :
    ∃ k, t.op.toNat = 2 + 2 * k ∧ (symbols t.code t.w.toNat)[k]? = some b := by
  simpa using pairDue_cases h

theorem op_of_closeMark_due {t : TxRegs} (h : pairDue t = some .closeMark) : t.op.toNat = 4 * t.w.toNat + 4 := by
  simpa using pairDue_cases h

theorem op_of_framing_due {t : TxRegs} (h : groupDue t = some .framing) : t.op = 2 := by
  simpa using groupDue_cases h

theorem op_of_data_due {t : TxRegs} {b : Bool} (h : groupDue t = some (.data b)) :
    ∃ j, j < t.w.toNat ∧ t.op.toNat = 4 + 4 * j ∧ t.code.getLsbD (t.w.toNat - 1 - j) = b := by
  simpa [eq_comm (a := b)] using groupDue_cases h

theorem drivePair_of_due {p : LinePair} {s : State} (hs : s.txState = .sending) (hp : pairDue s.tx = some p) :
    drivePair p s = answersOk 2 s := if_pos ⟨hs, hp⟩

theorem driveGroup_of_due {g : SymbolGroup} {s : State} (hs : s.txState = .sending) (hg : groupDue s.tx = some g) :
    driveGroup g s = answersOk (2 * (groupBits g).length) s := if_pos ⟨hs, hg⟩

theorem drivePair_of_not_due {p : LinePair} {s : State} (h : s.txState = .idle ∨ pairDue s.tx ≠ some p) :
    drivePair p s = .fault .linePartNotDue :=
  if_neg fun ⟨hs, hp⟩ => h.elim (fun hi => absurd (hi.symm.trans hs) nofun) (· hp)

theorem driveGroup_of_not_due {g : SymbolGroup} {s : State} (h : s.txState = .idle ∨ groupDue s.tx ≠ some g) :
    driveGroup g s = .fault .linePartNotDue :=
  if_neg fun ⟨hs, hg⟩ => h.elim (fun hi => absurd (hi.symm.trans hs) nofun) (· hg)

/-! ## The rows -/

/-- Settles O30: the pair due at op 0 is the opening sync, and the framing symbol's high op comes after it. -/
theorem lineSyncOpenDrivesSync : Obligations.LineSyncOpenDrivesSync := by
  intro s prof hs hl hop hrep
  have hop0 : s.tx.op.toNat = 2 * 0 := by rw [hop]; rfl
  refine ⟨unitDur prof.syncLow s.tx.pl, unitDur prof.oneHigh s.tx.pl, unitDur_toNat .., unitDur_toNat .., ?_⟩
  calc drivePair .syncOpen s
    _ = answersOk 2 s := drivePair_of_due hs (pairDue_of_op hop0)
    _ = _ := answersOk_pair hs hl hrep hop0 rfl rfl rfl
    _ = _ := by rw [State.movedOn, hop]; rfl

/-- Settles O31: the pair due at op 2 + 2k is that of symbol k. -/
theorem lineSymbolsDrivePair : Obligations.LineSymbolsDrivePair := by
  intro s prof k nxt hs hl hop hrep hnxt
  have drive (b : Bool) (hb : (symbols s.tx.code s.tx.w.toNat)[k]? = some b) : drivePair (.sym b) s =
      .next (s.movedOn 2 .L [⟨.L, unitDur (if b then prof.oneLow else prof.zeroLow) s.tx.pl⟩] nxt) := by
    rw [drivePair_of_due hs, answersOk_sym hs hl hrep hop hb hnxt]
    rw [pairDue_of_op (k := k + 1) (by omega), framePairs_sym _ _ _ _ hb]
  exact ⟨fun hb => ⟨_, unitDur_toNat .., drive true hb⟩, fun hb => ⟨_, unitDur_toNat .., drive false hb⟩⟩

/-- Settles O32: the marker's first op moves the send on inside the frame, its second is the frame's last op. -/
theorem lineCloseMarkEndsFrame : Obligations.LineCloseMarkEndsFrame := by
  intro s prof hs hl hop hrep
  have hlast := frame_last s.tx.code s.tx.w.toNat prof s.tx.pl
  have hfirst : (frame s.tx.code s.tx.w.toNat prof s.tx.pl)[4 * s.tx.w.toNat + 4]? =
      some ⟨.H, unitDur prof.syncHigh s.tx.pl⟩ := by
    rw [show 4 * s.tx.w.toNat + 4 = 2 * (2 * s.tx.w.toNat + 2) + 0 by omega, frame_getElem? _ _ _ _ _ _ (by omega),
      framePairs_close]
    rfl
  have hdue : pairDue s.tx = some .closeMark := by
    rw [pairDue_of_op (k := 2 * s.tx.w.toNat + 2) (by omega), framePairs_close]
  have drive : exec .lineCloseMark s =
      andThen (answerOk (s.movedOn 1 .H [] ⟨.H, unitDur prof.syncHigh s.tx.pl⟩)) .next := by
    calc drivePair .closeMark s
      _ = answersOk 2 s := drivePair_of_due hs hdue
      _ = _ := by rw [answersOk, answerOk_mid hs hl hrep hop hfirst hlast]; rfl
  have hop' := op_add_toNat (n := 1) hop (by omega)
  refine ⟨unitDur prof.syncHigh s.tx.pl, unitDur_toNat .., fun hnext => ?_, fun hend => ?_⟩
  · rw [drive, answerOk_nextFrame (s := s.movedOn 1 .H [] _) hl hop' hnext]
    simp [State.movedOn, andThen]
  · obtain ⟨regs, k, e⟩ := drvRespOkEndsSend (s.movedOn 1 .H [] ⟨.H, unitDur prof.syncHigh s.tx.pl⟩) prof hs hl
      (congrArg (· + 1) hop') hend
    refine ⟨regs, k, ?_⟩
    rw [drive, ← execDrvResp_true (s := s.movedOn 1 .H [] _) hs]
    exact congrArg (andThen · .next) e

/-- Settles O33: the framing bit is symbol 0. -/
theorem symbitsFramingDrivesOne : Obligations.SymbitsFramingDrivesOne := by
  intro s prof nxt hs hl hop hrep hnxt
  refine ⟨unitDur prof.oneLow s.tx.pl, unitDur_toNat .., ?_⟩
  calc driveGroup .framing s
    _ = answersOk 2 s := driveGroup_of_due hs (groupDue_framing hop)
    _ = _ := answersOk_sym (k := 0) hs hl hrep (by rw [hop]; rfl) rfl hnxt
    _ = _ := by rw [State.movedOn, hop]; rfl

/-- Settles O34: data bit j is two symbols, whose pairs are driven one after the other. -/
theorem symbitsDataDriveBothSymbols : Obligations.SymbitsDataDriveBothSymbols := by
  intro s prof j nxt hs hl hj hop hrep hnxt
  have drive (b : Bool) (hb : s.tx.code.getLsbD (s.tx.w.toNat - 1 - j) = b) :
      driveGroup (.data b) s = answersOk 4 s := by
    rw [driveGroup_of_due hs (by rw [groupDue_data hj hop, hb]), groupBits, expand_length]
  exact ⟨_, _, _, _, unitDur_toNat .., unitDur_toNat .., unitDur_toNat .., unitDur_toNat ..,
    fun hb => (drive false hb).trans (answersOk_data hs hl hrep hj hop hb hnxt),
    fun hb => (drive true hb).trans (answersOk_data hs hl hrep hj hop hb hnxt)⟩

/-- Settles O35: a pair or a group that is due stands at one position of the frame. -/
theorem lineCodeElsewhereStops : Obligations.LineCodeElsewhereStops := by
  intro s
  have pair {p : LinePair} {due : Prop} (hdue : pairDue s.tx = some p → due) (h : s.txState = .idle ∨ ¬due) :
      drivePair p s = .fault .linePartNotDue := drivePair_of_not_due (h.imp_right (mt hdue))
  have group {g : SymbolGroup} {due : Prop} (hdue : groupDue s.tx = some g → due) (h : s.txState = .idle ∨ ¬due) :
      driveGroup g s = .fault .linePartNotDue := driveGroup_of_not_due (h.imp_right (mt hdue))
  exact ⟨pair op_of_syncOpen_due, pair op_of_sym_due, pair op_of_sym_due, pair op_of_closeMark_due,
    group op_of_framing_due, group op_of_data_due, group op_of_data_due⟩

/-- Settles O29: a frame is its pairs, and the table's bits are those of each pair and each group. -/
theorem frameIsItsLineCode : Obligations.FrameIsItsLineCode :=
  ⟨frame_eq_pairs, fun _ _ => ⟨rfl, rfl, rfl, rfl⟩, rfl, rfl, fun _ _ => ⟨_, _, rfl, rfl, rfl⟩⟩

/-! ## Events -/

/-- What a Match can hold: the raw pattern is two symbols a bit, and each symbol takes two of the entries (R172 to R174,
R180). -/
theorem tryDecode_bounds {es : List Nat} {prof : Profile} {m : Match} (h : tryDecode es prof = some m) :
    48 < es.length ∧ m.rc = 2 * m.bitLength ∧ 4 * m.bitLength + 6 ≤ es.length ∧ m.code < 2 ^ m.bitLength ∧
      m.raw < 2 ^ (2 * m.bitLength) := by
  obtain ⟨e0, e1, rest, logical, rfl, hlen, -, -, hw, rfl⟩ := tryDecode_eq_some h
  have hsym := flatMap_length_two expand expand_length logical
  have hwalk := walk_length hw
  have hraw := bitsValue_lt (logical.flatMap expand)
  rw [hsym] at hwalk hraw
  exact ⟨hlen, rfl, by dsimp only [List.length_cons]; omega, bitsValue_lt logical, hraw⟩

/-- A pattern that passes the noise check has more than 32 bits (R204). -/
theorem two_pow_le_of_noiseOk {raw : Nat} (h : noiseOk raw = true) : 2 ^ 32 ≤ raw := by
  rw [noiseOk, Bool.and_eq_true, decide_eq_true_iff, render_length, noiseMinLen] at h
  obtain ⟨-, hlen⟩ := h
  by_contra hlt
  have := (bitlen1_le_iff raw 32 (by omega)).2 (by omega)
  omega

theorem bitLength_of_noiseOk {es : List Nat} {prof : Profile} {m : Match} (h : tryDecode es prof = some m)
    (hn : noiseOk m.raw = true) : 17 ≤ m.bitLength := by
  obtain ⟨-, -, -, -, hraw⟩ := tryDecode_bounds h
  have := (Nat.pow_lt_pow_iff_right (by omega : 1 < 2)).1 (lt_of_le_of_lt (two_pow_le_of_noiseOk hn) hraw)
  omega

/-- R203: the dispatch answers a profile of the table, at its index. -/
theorem decodeBuffer_eq_some {s : State} {p : Nat} {m : Match} (h : s.decodeBuffer = some (p, m)) :
    1 ≤ p ∧ p ≤ s.pt.nProto ∧ ∃ prof, tryDecode s.entries prof = some m := by
  obtain ⟨k, prof, rfl, hk, hm, -⟩ := firstMatch_eq_some_iff.1 h
  obtain ⟨hlt, -⟩ := List.getElem?_eq_some_iff.1 hk
  exact ⟨by omega, by rw [ProtoTable.nProto]; omega, prof, hm⟩

/-- The event of a Match that passes the noise check keeps to R86's and R214's bounds. -/
theorem eventOf_bounded {s : State} {p : Nat} {m : Match} (hc : s.rxCount.toNat ≤ 256)
    (h : s.decodeBuffer = some (p, m)) (hn : noiseOk m.raw = true) : (eventOf s p m).Bounded s.pt := by
  obtain ⟨hp1, hp, prof, hm⟩ := decodeBuffer_eq_some h
  obtain ⟨hlen, -, hent, hcode, -⟩ := tryDecode_bounds hm
  have hmin := bitLength_of_noiseOk hm hn
  rw [entries_length hc] at hlen hent
  have hbl : (BitVec.ofNat 8 m.bitLength).toNat = m.bitLength := by rw [BitVec.toNat_ofNat]; omega
  have hvalid : validIdx s.pt (BitVec.ofNat 8 p) := by
    have := s.pt.bounded
    rw [ProtoTable.nProto] at hp
    rw [validIdx, BitVec.toNat_ofNat, ProtoTable.nProto]
    omega
  have hcode' : (BitVec.ofNat 64 m.code).toNat < 2 ^ m.bitLength :=
    lt_of_le_of_lt (Nat.mod_le _ _) hcode
  unfold DecodedCode.Bounded eventOf
  dsimp only
  rw [hbl]
  exact ⟨hvalid, hmin, by omega, hcode', hlen, hc, buffer_length hc⟩

theorem State.EventsBounded.congr {s t : State} (h : s.EventsBounded) (he : t.eventLog = s.eventLog)
    (hpt : t.pt = s.pt) : t.EventsBounded := by
  unfold State.EventsBounded
  rw [he, hpt]
  exact h

theorem State.EventsBounded.emitEvent {s : State} {e : DecodedCode} (h : s.EventsBounded) (he : e.Bounded s.pt) :
    (s.emitEvent e).EventsBounded := by
  intro e' he'
  obtain hold | hnew := List.mem_append.1 he'
  · exact h e' hold
  · rw [List.mem_singleton.1 hnew]; exact he

theorem State.EventsBounded.decodeAtBoundary {s : State} (h : s.EventsBounded) (hc : s.rxCount.toNat ≤ 256) :
    (decodeAtBoundary s).1.EventsBounded := by
  obtain e | ⟨p, m, hd, hn, e⟩ := decodeAtBoundary_state s <;> rw [e]
  · exact h
  · exact h.emitEvent (eventOf_bounded hc hd hn)

theorem State.EventsBounded.rxEdge {s : State} (h : s.EventsBounded) (hc : s.rxCount.toNat ≤ 256) (ts : Stamp) :
    (rxEdge ts s).1.EventsBounded := by
  have hts : (s.setLastTs ts).EventsBounded := h
  obtain ⟨-, e⟩ | ⟨-, -, e⟩ | ⟨-, -, e⟩ := rxEdge_cases ts s <;> rw [e]
  · exact (hts.decodeAtBoundary hc).congr rfl rfl
  · exact hts.congr rfl rfl
  · exact hts.congr rfl rfl

theorem TransmitMeaning.keeps_eventsBounded {f : State → Answer} (hf : TransmitMeaning f) {s t : State}
    (hs : s.EventsBounded) (h : f s = .next t) : t.EventsBounded := by
  obtain ⟨hpt, -, -, -, -, he⟩ := hf.keeps h
  exact hs.congr he hpt

/-- Settles O56: only a boundary edge adds an event, that of a Match which passes the noise check. -/
theorem stepKeepsEventsBounded : Obligations.StepKeepsEventsBounded := by
  intro s t hrx hs h
  have taken (ws : List CmdWord) : State.EventsBounded { s with input := ws } := hs
  obtain ⟨hc, -, -⟩ := hrx
  exact step_next_elim h hs (fun ws r => (taken ws).congr (State.markRefused_eventLog _ r) (State.markRefused_pt _ r))
    (fun ws _ _ _ _ _ _ _ h => (TransmitMeaning.transmit ..).keeps_eventsBounded (taken ws) h)
    (fun ws ok h => (TransmitMeaning.drvResp ok).keeps_eventsBounded (taken ws) h)
    (fun ws ts => (taken ws).rxEdge hc ts) fun ws => (taken ws).congr rfl rfl

/-! ## What stops a step -/

/-- Inside a send that meets the invariant every answered drive request has a next state (R136). -/
theorem State.TxInv.answerOk_next {s : State} (hs : s.TxInv) (hsend : s.txState = .sending) :
    ∃ t, Machine.answerOk s = .next t := by
  obtain ⟨-, -, hpos⟩ := hs
  obtain ⟨prof, hl, -, hop, hrep, -, -⟩ := hpos hsend
  have hf := currentFrame_of_lookup hl
  obtain ⟨hlen, hmax⟩ := currentFrame_length hf
  obtain ⟨cur, hcur⟩ := frame_isSome s.tx.code s.tx.w.toNat prof s.tx.pl _ hop
  by_cases hend : (nextPosition (frame s.tx.code s.tx.w.toNat prof s.tx.pl).length s.tx).rep = s.tx.r
  · exact ⟨_, answerOk_end hf hcur hend⟩
  · obtain ⟨hop', -⟩ := nextPosition_inside hmax (hlen ▸ hop) hrep hend
    exact ⟨_, answerOk_advance hf hcur hend (List.getElem?_eq_getElem hop')⟩

theorem State.TxInv.execDrvResp_fault {s : State} (hs : s.TxInv) {ok : Bool} {f : Fault}
    (h : Machine.execDrvResp ok s = .fault f) : f = .drvRespWhileIdle ∧ s.txState = .idle := by
  cases hst : s.txState with
  | idle => rw [execDrvResp_of_idle hst] at h; cases h; exact ⟨rfl, rfl⟩
  | sending =>
    cases ok with
    | true =>
      obtain ⟨t, ht⟩ := hs.answerOk_next hst
      rw [execDrvResp_true hst, ht] at h; cases h
    | false => rw [execDrvResp_false hst] at h; cases h

theorem execDrvResp_ne_refused (ok : Bool) (s : State) (r : Refusal) : execDrvResp ok s ≠ .refused r := by
  intro h
  cases hst : s.txState with
  | idle => rw [execDrvResp_of_idle hst] at h; cases h
  | sending =>
    cases ok with
    | true => rw [execDrvResp_true hst] at h; exact answerOk_ne_refused s r h
    | false => rw [execDrvResp_false hst] at h; cases h

theorem transmit_next (proto : ProtoIdx) (plv blv : Bool) (rep : RepeatCount) (pl : PulseLen) (bl : BitLen) (code : Code)
    (s : State) : ∃ t, transmit proto plv blv rep pl bl code s = .next t := by
  obtain ⟨-, e⟩ | ⟨-, -, e⟩ | ⟨-, -, -, e⟩ | ⟨-, -, prof, -, e⟩ := transmit_cases proto plv blv rep pl bl code s <;>
    exact ⟨_, e⟩

/-- A step with no next state has taken a DRV_RESP, and stops as that does. -/
theorem step_stops {s : State} (h : ∀ t, step s ≠ .next t) :
    ∃ w ws ok, s.input = w :: ws ∧ decode w = .instr (.drvResp ok) ∧ step s = execDrvResp ok { s with input := ws } := by
  obtain ⟨-, e⟩ | ⟨w, ws, hin, ⟨i, hd, e⟩ | ⟨r, -, e⟩⟩ := step_cases (Eq.refl (step s))
  · exact absurd e (h s)
  · obtain ⟨proto, plv, blv, rep, pl, bl, code, rfl⟩ | ⟨ok, rfl⟩ | ⟨ts, rfl⟩ | rfl := decode_instr_cases hd
    · obtain ⟨t, ht⟩ := transmit_next proto plv blv rep pl bl code { s with input := ws }
      exact absurd (e.trans ht) (h t)
    · exact ⟨w, ws, ok, hin, hd, e⟩
    · exact absurd e (h _)
    · exact absurd e (h _)
  · exact absurd e (h _)

/-- Settles O57: only DRV_RESP stops, and while SENDING the invariant gives every answer a next state. -/
theorem onlyStrayDrvRespStops : Obligations.OnlyStrayDrvRespStops := by
  refine ⟨fun s f hs h => ?_, fun s r h => ?_⟩
  · obtain ⟨w, ws, ok, hin, hd, e⟩ := step_stops (s := s) (by rw [h]; exact nofun)
    have taken : State.TxInv { s with input := ws } := hs
    obtain ⟨hf, hidle⟩ := taken.execDrvResp_fault (e.symm.trans h)
    exact ⟨hf, hidle, w, ws, ok, hin, hd⟩
  · obtain ⟨w, ws, ok, -, -, e⟩ := step_stops (s := s) (by rw [h]; exact nofun)
    exact execDrvResp_ne_refused ok _ r (e.symm.trans h)

end Sys2Proof.Machine
end

section
/-! PROOFS of 40_protocol_table.md. No command and no step writes the table (R105, R107), and LOOKUP answers the valid
indices with their entries (R100, R101). -/

namespace Sys2Proof.Machine

/-! ## The table stays -/

/-- An edge changes the receive side only, and the table is not part of it (R34). -/
@[simp] theorem rxEdge_pt (ts : Stamp) (s : State) : (rxEdge ts s).1.pt = s.pt := by
  rw [rxEdge_eq_withReceiveOf, State.withReceiveOf_pt]

/-- R273: RESET leaves the table as it was. -/
@[simp] theorem hardReset_pt (s : State) : s.hardReset.pt = s.pt := rfl

theorem exec_pt {i : Instr} {s t : State} (h : exec i s = .next t) : t.pt = s.pt := by
  by_cases hrx : ∃ ts, i = .rxEdge ts
  · obtain ⟨ts, rfl⟩ := hrx
    rw [exec_rxEdge] at h
    cases h
    exact rxEdge_pt ts s
  · by_cases hreset : i = .reset
    · rw [hreset, exec_reset] at h
      cases h
      exact hardReset_pt s
    · obtain ⟨hpt, -⟩ := (exec_transmitMeaning (not_exists.1 hrx) hreset).keeps h
      exact hpt

theorem step_pt {s t : State} (h : step s = .next t) : t.pt = s.pt := by
  obtain ⟨-, e⟩ | ⟨w, ws, -, ⟨i, -, e⟩ | ⟨r, -, e⟩⟩ := step_cases h
  · cases e; rfl
  · exact exec_pt (s := { s with input := ws }) e.symm
  · cases e; exact State.markRefused_pt _ r

/-- Settles O9: an edge and RESET keep the table, every other instruction is one of the transmit side, and a step takes a
word and then runs an instruction or sets a mark. -/
theorem tableIsImmutable : Obligations.TableIsImmutable :=
  ⟨fun _ _ _ h => exec_pt h, fun _ _ h => step_pt h⟩

/-! ## LOOKUP -/

/-- Index k + 1 reads entry k of the list, which begins with `PT[1]`. -/
theorem lookup_of_toNat_eq_succ {t : ProtoTable} {i : ProtoIdx} {k : Nat} (h : i.toNat = k + 1) :
    lookup t i = t.profiles[k]? := by
  ext p
  rw [lookup_eq_some_iff]
  constructor
  · rintro ⟨j, hj, hp⟩
    obtain rfl : j = k := by omega
    exact hp
  · exact fun hp => ⟨k, h, hp⟩

/-- Settles O11: the valid indices are those LOOKUP answers, and index k + 1 reads entry k. -/
theorem lookupValidIndices : Obligations.LookupValidIndices :=
  fun _ _ => ⟨lookup_isSome_iff, fun _ h => lookup_of_toNat_eq_succ h⟩

end Sys2Proof.Machine
end

section
/-! PROOFS of 41_transmit.md. What TX_SEND and SEND answer (R121 to R124, R130 to R132, R140), the frame and its repetition
op by op (R125 to R129, R133), and a send as the machine drives it, answer by answer (R136 to R139). -/

namespace Sys2Proof.Machine

/-! ## What a transmit command answers -/

section Transmit
variable {proto : ProtoIdx} {plv blv : Bool} {rep : RepeatCount} {pl : PulseLen} {bl : BitLen} {code : Code} {s : State}

theorem transmit_of_sending (hs : s.txState = .sending) :
    transmit proto plv blv rep pl bl code s = .next s.markOverlap := if_pos hs

theorem transmit_of_invalid (hs : s.txState = .idle) (hl : lookup s.pt proto = none) :
    transmit proto plv blv rep pl bl code s = .next (s.setResult .invalidProtocol) := by
  rw [transmit, if_neg (by simp [hs]), hl]
  rfl

theorem transmit_of_repeat_zero {prof : Profile} (hs : s.txState = .idle) (hl : lookup s.pt proto = some prof) :
    transmit proto plv blv 0 pl bl code s = .next (s.setResult .success) := by
  rw [transmit, if_neg (by simp [hs]), hl]
  rfl

theorem transmit_of_accepted {prof : Profile} (hs : s.txState = .idle) (hl : lookup s.pt proto = some prof)
    (hrep : rep ≠ 0) :
    transmit proto plv blv rep pl bl code s =
      .next ((s.beginSend (sendRegs prof proto plv blv rep pl bl code)).emitDrive
        ⟨.H, unitDur prof.syncHigh (pulseInEffect prof plv pl)⟩) := by
  rw [transmit, if_neg (by simp [hs]), hl]
  exact if_neg hrep

end Transmit

/-- Settles O18: both commands are `transmit`, which looks at nothing else while SENDING. -/
theorem overlapOnlyMarksFault : Obligations.OverlapOnlyMarksFault :=
  fun _ _ _ _ _ _ _ _ hs => ⟨transmit_of_sending hs, transmit_of_sending hs⟩

/-- Settles O16: LOOKUP fails exactly at the invalid indices, and it comes before the repeat count. -/
theorem invalidProtocolPresentsNothing : Obligations.InvalidProtocolPresentsNothing := by
  intro _ _ _ _ _ _ _ _ hs hidx
  have hl := lookup_eq_none_iff.2 hidx
  exact ⟨transmit_of_invalid hs hl, transmit_of_invalid hs hl⟩

/-- Settles O17: a valid index has a profile, so the repeat count decides; an invalid one is refused before it. -/
theorem repeatZeroSucceedsAtOnce : Obligations.RepeatZeroSucceedsAtOnce := by
  intro _ _ _ _ _ _ _ hs
  refine ⟨fun hidx => ?_, fun hidx => transmit_of_invalid hs (lookup_eq_none_iff.2 hidx)⟩
  obtain ⟨prof, hl⟩ := Option.isSome_iff_exists.1 (lookup_isSome_iff.2 hidx)
  exact ⟨transmit_of_repeat_zero hs hl, transmit_of_repeat_zero hs hl⟩

/-- Settles O13: the width and the duration of the registers and of the first op fit their fields. -/
theorem txSendStartsSend : Obligations.TxSendStartsSend :=
  fun _ _ _ _ _ _ _ _ _ hs hl hrep =>
    ⟨_, _, dataWidth_toNat .., unitDur_toNat .., transmit_of_accepted hs hl hrep⟩

/-- Settles O14: SEND is the TX_SEND with neither override. -/
theorem sendStartsSend : Obligations.SendStartsSend :=
  fun _ _ _ _ _ hs hl hrep => ⟨_, _, dataWidth_toNat .., unitDur_toNat .., transmit_of_accepted hs hl hrep⟩

/-! ## The frame -/

/-- Settles O24: the framing bit comes first, and data bit j is the two symbols after 2j others. -/
theorem symbolSequence : Obligations.SymbolSequence :=
  fun code w => ⟨symbols_length code w, rfl, fun _ hj => symbols_data hj rfl⟩

/-- The first op of the closing marker; `frame_last` is its second. -/
theorem frame_closeMark_first (code : Code) (w : Nat) (prof : Profile) (pl : PulseLen) :
    (frame code w prof pl)[4 * w + 4]? = some ⟨.H, unitDur prof.syncHigh pl⟩ := by
  rw [show 4 * w + 4 = 2 * (2 * w + 2) + 0 by omega, frame_getElem? _ _ _ _ _ _ (by omega), framePairs_close]
  rfl

/-- Settles O25: the opening sync is the frame's first pair, each symbol has its pair, and the marker is the last. -/
theorem frameOpByOp : Obligations.FrameOpByOp :=
  fun _ _ _ pl =>
    ⟨frame_length .., fun c => unitDur_toNat c pl, frame_zero .., rfl, fun _ hk => frame_sym hk, fun _ hk => frame_sym hk,
      frame_closeMark_first .., frame_last ..⟩

/-- Every op of a frame is held for some count of the profile times the pulse length (R126, R127). -/
theorem dur_of_mem_frame {code : Code} {w : Nat} {prof : Profile} {pl : PulseLen} {op : DriveOp}
    (h : op ∈ frame code w prof pl) : ∃ c, op.dur = unitDur c pl := by
  rw [frame_eq_pairs] at h
  obtain ⟨p, -, hop⟩ := List.mem_flatMap.1 h
  obtain ⟨l, c, l', c', hpair⟩ : ∃ l c l' c', pairOps prof pl p = [⟨l, unitDur c pl⟩, ⟨l', unitDur c' pl⟩] := by
    rcases p with _ | b | _
    · exact ⟨_, _, _, _, rfl⟩
    · cases b <;> exact ⟨_, _, _, _, rfl⟩
    · exact ⟨_, _, _, _, rfl⟩
  rw [hpair, List.mem_pair] at hop
  obtain rfl | rfl := hop
  · exact ⟨_, rfl⟩
  · exact ⟨_, rfl⟩

theorem unitDur_zero (c : UnitCount) : unitDur c 0 = 0 :=
  BitVec.eq_of_toNat_eq (unitDur_toNat c 0)

/-! ## The frames of a send, one after the other -/

theorem mem_frame_of_mem_sendOps {r : Nat} {f : List DriveOp} {op : DriveOp} (h : op ∈ sendOps r f) : op ∈ f := by
  obtain ⟨g, hg, hop⟩ := List.mem_flatten.1 h
  exact List.eq_of_mem_replicate hg ▸ hop

/-- The first k frames of a send are a send of k frames. -/
theorem sendOps_take {r k : Nat} (f : List DriveOp) (hk : k ≤ r) : (sendOps r f).take (k * f.length) = sendOps k f := by
  obtain ⟨m, rfl⟩ := Nat.exists_eq_add_of_le hk
  rw [sendOps, List.replicate_add, List.flatten_append]
  exact List.take_left' (sendOps_length k f)

theorem totalDur_append (xs ys : List DriveOp) : totalDur (xs ++ ys) = totalDur xs + totalDur ys := by
  simp [totalDur]

theorem totalDur_sendOps (r : Nat) (f : List DriveOp) : totalDur (sendOps r f) = r * totalDur f := by
  induction r with
  | zero => rw [Nat.zero_mul]; rfl
  | succ r ih => rw [sendOps_succ, totalDur_append, ih, Nat.succ_mul, Nat.add_comm]

/-- An op that is not the first is asserted at the deadline of the one before it (R282). -/
theorem assertTime_of_pos (t0 : Nat) (ops : List DriveOp) {i : Nat} (hi : 0 < i) :
    assertTime t0 ops i = deadline t0 ops (i - 1) := by
  obtain ⟨k, rfl⟩ := Nat.exists_eq_succ_of_ne_zero hi.ne'
  rfl

/-- The deadline of the last op of frame k is k + 1 frame durations after the first op (R129, R282). -/
theorem deadline_sendOps {r k : Nat} (t0 : Nat) {f : List DriveOp} (hf : 0 < f.length) (hk : k < r) :
    deadline t0 (sendOps r f) ((k + 1) * f.length - 1) = t0 + (k + 1) * totalDur f := by
  rw [deadline, Nat.sub_add_cancel (Nat.mul_pos k.succ_pos hf), sendOps_take f hk, totalDur_sendOps]

/-- Settles O26: a send is its frames in a row, and frame k ends after k + 1 frame durations. -/
theorem sendRepeatsFrameWithoutGap : Obligations.SendRepeatsFrameWithoutGap := by
  intro r code w prof pl
  have hlen := frame_length code w prof pl
  rw [← hlen]
  have hpos : 0 < (frame code w prof pl).length := by omega
  refine ⟨sendOps_length .., fun i hi => sendOps_getElem? _ _ i hi, fun t0 k hk => ?_, fun op hop => ?_⟩
  · exact ⟨assertTime_of_pos _ _ (Nat.mul_pos k.succ_pos hpos), deadline_sendOps t0 hpos hk⟩
  · obtain ⟨c, hc⟩ := dur_of_mem_frame (mem_frame_of_mem_sendOps hop)
    rw [hc, unitDur_zero]

/-! ## DRV_RESP outside a send and between frames -/

/-- Settles O23: `execDrvResp` asks first whether the block is idle. -/
theorem drvRespWhileIdleHasNoStep : Obligations.DrvRespWhileIdleHasNoStep :=
  fun ok _ hs => execDrvResp_of_idle hs ok

/-- Settles O20: the position after a frame's last op is the start of the next frame. -/
theorem drvRespOkStartsNextFrame : Obligations.DrvRespOkStartsNextFrame := by
  intro s prof hs hl hop hrep
  refine ⟨_, unitDur_toNat .., ?_⟩
  calc execDrvResp true s
    _ = answerOk s := execDrvResp_true hs
    _ = _ := answerOk_nextFrame hl (by omega) hrep

/-! ## A send, op by op through the machine -/

/-- The ops of the send with registers `t` (R129). -/
def TxRegs.ops (t : TxRegs) (prof : Profile) : List DriveOp :=
  sendOps t.r.toNat (frame t.code t.w.toNat prof t.pl)

/-- How many ops the send with registers `t` has (R128, R129). -/
def TxRegs.opCount (t : TxRegs) : Nat := t.r.toNat * (4 * t.w.toNat + 6)

/-- The registers of the send `t` when it stands at its `n`-th op, counted across its frames. -/
def TxRegs.atOp (t : TxRegs) (n : Nat) : TxRegs :=
  { t with rep := BitVec.ofNat _ (n / (4 * t.w.toNat + 6)), op := BitVec.ofNat _ (n % (4 * t.w.toNat + 6)) }

theorem TxRegs.ops_length (t : TxRegs) (prof : Profile) : (t.ops prof).length = t.opCount := by
  simp [TxRegs.ops, TxRegs.opCount]

theorem TxRegs.ops_getElem? {t : TxRegs} {n : Nat} (prof : Profile) (hn : n < t.opCount) :
    (t.ops prof)[n]? = (frame t.code t.w.toNat prof t.pl)[n % (4 * t.w.toNat + 6)]? := by
  rw [TxRegs.opCount, ← frame_length t.code _ prof t.pl] at hn
  rw [TxRegs.ops, sendOps_getElem? _ _ n hn, frame_length]

theorem TxRegs.ops_isSome {t : TxRegs} {n : Nat} (prof : Profile) (hn : n < t.opCount) :
    ∃ op, (t.ops prof)[n]? = some op :=
  ⟨_, List.getElem?_eq_getElem (by rwa [TxRegs.ops_length])⟩

theorem TxRegs.atOp_op (t : TxRegs) (n : Nat) : (t.atOp n).op.toNat = n % (4 * t.w.toNat + 6) := by
  have hw := t.w.isLt
  have hlt := Nat.mod_lt n (show 0 < 4 * t.w.toNat + 6 by omega)
  rw [TxRegs.atOp, BitVec.toNat_ofNat]
  exact Nat.mod_eq_of_lt (by omega)

/-- The repetition of an op is the repeat count exactly when the op is the one after the send's last. -/
theorem TxRegs.atOp_rep_eq_iff {t : TxRegs} {n : Nat} (hn : n ≤ t.opCount) : (t.atOp n).rep = t.r ↔ n = t.opCount := by
  have hpos : 0 < 4 * t.w.toNat + 6 := Nat.succ_pos _
  have hle : n / (4 * t.w.toNat + 6) ≤ t.r.toNat := Nat.div_le_of_le_mul (Nat.mul_comm .. ▸ hn)
  have hrep : (t.atOp n).rep.toNat = n / (4 * t.w.toNat + 6) :=
    Nat.mod_eq_of_lt (lt_of_le_of_lt hle t.r.isLt)
  rw [← BitVec.toNat_inj, hrep]
  constructor
  · intro h
    exact le_antisymm hn ((Nat.le_div_iff_mul_le hpos).1 h.ge)
  · rintro rfl
    exact Nat.mul_div_cancel _ hpos

/-- Op `m` of frame `q` is the op of the send numbered so across its frames. -/
theorem TxRegs.atOp_eq {t : TxRegs} {n q m : Nat} (hn : m + (4 * t.w.toNat + 6) * q = n) (hm : m < 4 * t.w.toNat + 6) :
    t.atOp n = { t with rep := BitVec.ofNat _ q, op := BitVec.ofNat _ m } := by
  obtain ⟨hq, hr⟩ := (Nat.div_mod_unique (Nat.zero_lt_of_lt hm)).2 ⟨hn, hm⟩
  rw [TxRegs.atOp, hq, hr]

/-- Moving on is counting on: the next op of the frame, or op 0 of the next one (R136). -/
theorem TxRegs.nextPosition_atOp (t : TxRegs) (n : Nat) :
    nextPosition (4 * t.w.toNat + 6) (t.atOp n) = t.atOp (n + 1) := by
  have hw := t.w.isLt
  have hop := t.atOp_op n
  have hlt := Nat.mod_lt n (show 0 < 4 * t.w.toNat + 6 by omega)
  have hn := Nat.mod_add_div n (4 * t.w.toNat + 6)
  by_cases hlast : n % (4 * t.w.toNat + 6) + 1 = 4 * t.w.toNat + 6
  · have hnext : t.atOp (n + 1) = _ :=
      TxRegs.atOp_eq (q := n / (4 * t.w.toNat + 6) + 1) (m := 0) (by rw [Nat.mul_succ]; omega) (by omega)
    rw [nextPosition_last (by omega) (by omega), hnext, BitVec.ofNat_add]
    rfl
  · have hnext : t.atOp (n + 1) = _ :=
      TxRegs.atOp_eq (q := n / (4 * t.w.toNat + 6)) (m := n % (4 * t.w.toNat + 6) + 1) (by omega) (by omega)
    rw [nextPosition_mid (by omega) (by omega), hnext, BitVec.ofNat_add]
    rfl

/-- The block in the send `send`, at its `n`-th op: the ops up to that one are in the drive log, after `log`. -/
structure State.InSend (s : State) (prof : Profile) (send : TxRegs) (log : List DriveOp) (n : Nat) : Prop where
  sending : s.txState = .sending
  profile : lookup s.pt send.proto = some prof
  position : s.tx = send.atOp n
  inside : n < send.opCount
  logged : s.driveLog = log ++ (send.ops prof).take (n + 1)

section InSend
variable {s : State} {prof : Profile} {send : TxRegs} {log : List DriveOp} {n : Nat}

theorem State.InSend.currentFrame (h : s.InSend prof send log n) :
    s.currentFrame = some (frame send.code send.w.toNat prof send.pl) := by
  have hl : lookup s.pt s.tx.proto = some prof := by rw [h.position]; exact h.profile
  rw [currentFrame_of_lookup hl, h.position]
  rfl

/-- The op at the position is the send's n-th. -/
theorem State.InSend.currentOp (h : s.InSend prof send log n) :
    (frame send.code send.w.toNat prof send.pl)[s.tx.op.toNat]? = (send.ops prof)[n]? := by
  rw [h.position, TxRegs.atOp_op, TxRegs.ops_getElem? prof h.inside]

theorem State.InSend.nextPosition (h : s.InSend prof send log n) :
    nextPosition (frame send.code send.w.toNat prof send.pl).length s.tx = send.atOp (n + 1) := by
  rw [frame_length, h.position, TxRegs.nextPosition_atOp]

theorem State.InSend.r (h : s.InSend prof send log n) : s.tx.r = send.r := by
  rw [h.position]; rfl

/-- The answer to an op that is not the send's last (R136). -/
theorem State.InSend.answerOk_next (h : s.InSend prof send log n) (hn : n + 1 < send.opCount) :
    ∃ t, answerOk s = .next t ∧ t.InSend prof send log (n + 1) := by
  obtain ⟨cur, hcur⟩ := TxRegs.ops_isSome prof h.inside
  obtain ⟨nxt, hnxt⟩ := TxRegs.ops_isSome prof hn
  have hrep : (send.atOp (n + 1)).rep ≠ s.tx.r := by
    rw [h.r, Ne, TxRegs.atOp_rep_eq_iff hn.le]; exact hn.ne
  have hop : (frame send.code send.w.toNat prof send.pl)[(send.atOp (n + 1)).op.toNat]? = some nxt := by
    rw [TxRegs.atOp_op, ← TxRegs.ops_getElem? prof hn, hnxt]
  have hnext := h.nextPosition
  refine ⟨_, answerOk_advance h.currentFrame (h.currentOp.trans hcur) (hnext ▸ hrep) (hnext ▸ hop),
    h.sending, h.profile, hnext, hn, ?_⟩
  rw [List.take_add_one, hnxt, ← List.append_assoc, ← h.logged]
  rfl

/-- The answer to the send's last op, which is high (R127, R136, R138). -/
theorem State.InSend.answerOk_last (h : s.InSend prof send log n) (hn : n + 1 = send.opCount) :
    answerOk s = .next ((s.setLine .H).endSend .success) := by
  have hop : (send.atOp n).op.toNat = 4 * send.w.toNat + 5 := by
    rw [TxRegs.atOp_op, ← Nat.succ_mod_succ_eq_zero_iff, hn, TxRegs.opCount]
    exact Nat.mul_mod_left ..
  have hrep : (send.atOp (n + 1)).rep = s.tx.r := by
    rw [h.r, TxRegs.atOp_rep_eq_iff hn.le]; exact hn
  exact answerOk_end h.currentFrame (by rw [h.position, hop]; exact frame_last ..) (by rw [h.nextPosition]; exact hrep)

/-- `m` answers from the n-th op lead to the (n + m)-th. -/
theorem State.InSend.drivesOk_next {m : Nat} (h : s.InSend prof send log n) (hm : n + m < send.opCount) :
    ∃ t, drivesOk m s = .next t ∧ t.InSend prof send log (n + m) := by
  induction m generalizing s n with
  | zero => exact ⟨s, rfl, h⟩
  | succ m ih =>
    obtain ⟨u, hu, hin⟩ := h.answerOk_next (by omega)
    rw [← Nat.add_assoc, Nat.add_right_comm] at hm ⊢
    obtain ⟨t, ht, hout⟩ := ih hin hm
    exact ⟨t, andThen_eq_next.2 ⟨u, (execDrvResp_true h.sending).trans hu, ht⟩, hout⟩

end InSend

/-- The last answer of a run, taken apart from those before it. -/
theorem drivesOk_succ (n : Nat) (s : State) : drivesOk (n + 1) s = andThen (drivesOk n s) (exec (.drvResp true)) := by
  induction n generalizing s with
  | zero =>
    change andThen (exec (.drvResp true) s) .next = exec (.drvResp true) s
    cases exec (.drvResp true) s <;> rfl
  | succ n ih =>
    rw [drivesOk]
    cases h : exec (.drvResp true) s with
    | next u => rw [drivesOk, h]; exact ih u
    | fault r => rw [drivesOk, h]; rfl
    | refused r => rw [drivesOk, h]; rfl

/-- An accepted TX_SEND stands at op 0 of its send (R130). -/
theorem transmit_inSend {proto : ProtoIdx} {rep : RepeatCount} {s : State} {prof : Profile} (hs : s.txState = .idle)
    (hl : lookup s.pt proto = some prof) (hrep : rep ≠ 0) (plv blv : Bool) (pl : PulseLen) (bl : BitLen) (code : Code) :
    ∃ t, transmit proto plv blv rep pl bl code s = .next t ∧
      t.InSend prof (sendRegs prof proto plv blv rep pl bl code) s.driveLog 0 := by
  have hinside : 0 < (sendRegs prof proto plv blv rep pl bl code).opCount :=
    Nat.mul_pos (Nat.pos_of_ne_zero fun h => hrep (BitVec.eq_of_toNat_eq h)) (Nat.succ_pos _)
  refine ⟨_, transmit_of_accepted hs hl hrep, rfl, hl, ?_, hinside, ?_⟩
  · simp [TxRegs.atOp, sendRegs]
  · rw [List.take_add_one, TxRegs.ops_getElem? prof hinside, Nat.zero_mod, frame_zero]
    rfl

/-- The width register counts W exactly, so an accepted send has R(4W + 6) ops (R124, R129). -/
theorem sendRegs_opCount (prof : Profile) (proto : ProtoIdx) (plv blv : Bool) (rep : RepeatCount) (pl : PulseLen)
    (bl : BitLen) (code : Code) :
    (sendRegs prof proto plv blv rep pl bl code).opCount = rep.toNat * (4 * dataWidth code blv bl + 6) := by
  rw [TxRegs.opCount, sendRegs, dataWidth_toNat]

theorem sendRegs_ops (prof : Profile) (proto : ProtoIdx) (plv blv : Bool) (rep : RepeatCount) (pl : PulseLen)
    (bl : BitLen) (code : Code) :
    (sendRegs prof proto plv blv rep pl bl code).ops prof =
      sendOps rep.toNat (frame code (dataWidth code blv bl) prof (pulseInEffect prof plv pl)) := by
  rw [TxRegs.ops, sendRegs, dataWidth_toNat]

/-- Settles O27: all answers but one lead through the send to its last op, and the last one ends it. -/
theorem wholeSendDrivesEveryFrame : Obligations.WholeSendDrivesEveryFrame := by
  intro proto plv blv rep pl bl code s prof hs hl hrep
  obtain ⟨s1, hsend, hin⟩ := transmit_inSend hs hl hrep plv blv pl bl code
  rw [← sendRegs_opCount prof proto plv blv rep pl bl code, ← sendRegs_ops prof proto]
  obtain ⟨n, hn⟩ := Nat.exists_eq_succ_of_ne_zero hin.inside.ne'
  obtain ⟨s2, hdrives, hlast⟩ := hin.drivesOk_next (m := n) (by omega)
  rw [Nat.zero_add] at hlast
  have hend := (execDrvResp_true hlast.sending).trans (hlast.answerOk_last hn.symm)
  refine ⟨s1, (s2.setLine .H).endSend .success, hsend, ?_, ?_, rfl, rfl, rfl, rfl⟩
  · rw [hn, drivesOk_succ]
    exact andThen_eq_next.2 ⟨s2, hdrives, hend⟩
  · have hlog := hlast.logged
    rw [List.take_of_length_le (by rw [TxRegs.ops_length]; exact hn.le)] at hlog
    exact hlog

/-- Settles O28: the failing answer finds the block at op n of the send, and presents nothing. -/
theorem failedDriveEmitsNothingFurther : Obligations.FailedDriveEmitsNothingFurther := by
  intro proto plv blv rep pl bl code s prof n hs hl hn
  have hrep : rep ≠ 0 := by rintro rfl; simp at hn
  obtain ⟨s1, hsend, hin⟩ := transmit_inSend hs hl hrep plv blv pl bl code
  rw [← sendRegs_opCount prof proto plv blv rep pl bl code, ← Nat.zero_add n] at hn
  obtain ⟨s2, hdrives, hat⟩ := hin.drivesOk_next hn
  rw [Nat.zero_add] at hat
  have hlog := hat.logged
  rw [sendRegs_ops] at hlog
  exact ⟨s1, s2, answerFail s2, hsend, hdrives, execDrvResp_false hat.sending, hlog, rfl, rfl, rfl⟩

end Sys2Proof.Machine
end

section
/-! PROOFS of 42_receive_decoder.md. Tolerance and classification of a pair (R160, R161, R166, R167), what a buffer that
matches is made of (R163 to R175), what a Match can hold (R180), and the round trip of a transmitted frame (R181). -/

namespace Sys2Proof.Machine

/-! ## Tolerance and classification -/

theorem absDiff_eq_natAbs (a b : Nat) : absDiff a b = ((a : Int) - (b : Int)).natAbs := by
  unfold absDiff; omega

/-- Twenty percent is one fifth, exactly (R160). -/
theorem within_iff (m e : Nat) : within m e = true ↔ 5 * ((m : Int) - (e : Int)).natAbs ≤ e := by
  rw [within, decide_eq_true_iff, absDiff_eq_natAbs, tolPercent]
  omega

@[simp] theorem within_self (e : Nat) : within e e = true := by
  simp [within_iff]

/-- Settles O36: the absolute deviation, split by its sign, gives the two ends of the interval. -/
theorem toleranceIsOneFifth : Obligations.ToleranceIsOneFifth :=
  fun m e => ⟨within_iff m e, (within_iff m e).trans (by omega)⟩

theorem fitsZero_iff {prof : Profile} {h l : Nat} : fitsZero prof h l = true ↔
    within h (expected prof prof.zeroHigh) = true ∧ within l (expected prof prof.zeroLow) = true := by
  rw [fitsZero, Bool.and_eq_true]

theorem fitsOne_iff {prof : Profile} {h l : Nat} : fitsOne prof h l = true ↔
    within h (expected prof prof.oneHigh) = true ∧ within l (expected prof prof.oneLow) = true := by
  rw [fitsOne, Bool.and_eq_true]

theorem isMarker_iff {prof : Profile} {h l : Nat} : isMarker prof h l = true ↔
    within h (expected prof prof.syncHigh) = true ∧ within l (expected prof prof.syncHigh) = true := by
  rw [isMarker, Bool.and_eq_true]

theorem classify_eq_none_iff {prof : Profile} {h l : Nat} :
    classify prof h l = none ↔ fitsZero prof h l = false ∧ fitsOne prof h l = false := by
  unfold classify
  split <;> simp [*]

/-- A pair that fits the zero pair, with the one pair no nearer, is a 0, whether or not it fits the one pair too. -/
theorem classify_of_zero_near {prof : Profile} {h l : Nat} (hz : fitsZero prof h l = true)
    (hd : fitsOne prof h l = true → devZero prof h l ≤ devOne prof h l) : classify prof h l = some false := by
  cases ho : fitsOne prof h l with
  | false => simp [classify, hz, ho]
  | true => simp [classify, hz, ho, nearest, hd ho]

/-- A pair that fits the one pair, with the zero pair farther off, is a 1, whether or not it fits the zero pair too. -/
theorem classify_of_one_nearer {prof : Profile} {h l : Nat} (ho : fitsOne prof h l = true)
    (hd : fitsZero prof h l = true → devOne prof h l < devZero prof h l) : classify prof h l = some true := by
  cases hz : fitsZero prof h l with
  | false => simp [classify, hz, ho]
  | true => simp [classify, hz, ho, nearest, hd hz]

/-- Settles O37: the fits and deviations in numbers, then the four cases of what the pair fits. -/
theorem classifyNearestTieZero : Obligations.ClassifyNearestTieZero := by
  intro prof h l
  refine ⟨?_, ?_, ?_, ?_, fun hz ho => ?_, fun hz ho => ?_, fun hz ho => classify_eq_none_iff.2 ⟨hz, ho⟩, fun hz ho =>
    ⟨fun hd => classify_of_one_nearer ho fun _ => hd, fun hd => classify_of_zero_near hz fun _ => hd⟩⟩
  · rw [fitsZero_iff, within_iff, within_iff, expected, expected]
  · rw [fitsOne_iff, within_iff, within_iff, expected, expected]
  · rw [devZero, absDiff_eq_natAbs, absDiff_eq_natAbs, expected, expected]
  · rw [devOne, absDiff_eq_natAbs, absDiff_eq_natAbs, expected, expected]
  · exact classify_of_one_nearer ho (by simp [hz])
  · exact classify_of_zero_near hz (by simp [ho])

/-! ## What a buffer that matches is made of -/

/-- The walk from its start: the framing pair, the pairs of the raw bits, the closing marker, and entries that are not
read (R165 to R172). -/
theorem walk_eq_some_iff {prof : Profile} {es : List Nat} {raw : List Bool} :
    walk prof false es = some raw ↔
      ∃ (f0 f1 : Nat) (ps : List (Nat × Nat)) (h l : Nat) (rest : List Nat),
        es = f0 :: f1 :: ps.flatMap (fun p => [p.1, p.2]) ++ h :: l :: rest ∧ classify prof f0 f1 ≠ none ∧
        ps.map (fun p => classify prof p.1 p.2) = raw.map some ∧
        classify prof h l = none ∧ isMarker prof h l = true := by
  rw [walk_false_iff]
  constructor
  · rintro ⟨f0, f1, rest, b, rfl, hf, hw⟩
    obtain ⟨ps, h, l, more, rfl, hps, hn, hm⟩ := walk_true_iff.1 hw
    exact ⟨f0, f1, ps, h, l, more, rfl, by simp [hf], hps, hn, hm⟩
  · rintro ⟨f0, f1, ps, h, l, more, rfl, hf, hps, hn, hm⟩
    obtain ⟨b, hb⟩ := Option.ne_none_iff_exists'.1 hf
    exact ⟨f0, f1, _, b, rfl, hb, walk_true_iff.2 ⟨ps, h, l, more, rfl, hps, hn, hm⟩⟩

/-- A pair of a walk classifies as its raw bit, the first the most significant (R166, R172). -/
theorem classify_eq_testBit {prof : Profile} {ps : List (Nat × Nat)} {raw : List Bool}
    (hps : ps.map (fun p => classify prof p.1 p.2) = raw.map some) {k : Nat} {p : Nat × Nat} (hk : ps[k]? = some p) :
    classify prof p.1 p.2 = some ((bitsValue raw).testBit (raw.length - 1 - k)) := by
  have hlen : ps.length = raw.length := by simpa using congrArg List.length hps
  have hlt : k < raw.length := hlen ▸ (List.getElem?_eq_some_iff.1 hk).1
  have hbit : (ps.map fun p => classify prof p.1 p.2)[k]? = (raw.map some)[k]? := congrArg (·[k]?) hps
  rw [List.getElem?_map, List.getElem?_map, hk, List.getElem?_eq_getElem hlt] at hbit
  rw [testBit_bitsValue hlt]
  exact Option.some.inj hbit

/-- Settles O38: a Match read off its buffer through the walk, and a buffer of that form walked back to a Match. -/
theorem decodeGateAndInferredPulse : Obligations.DecodeGateAndInferredPulse := by
  intro es prof
  refine ⟨fun hlen => ?_, fun e0 e1 rest hes => ⟨fun hsync => ?_, fun m hm => ?_⟩, fun m hm => ?_, ?_⟩
  · refine Option.eq_none_iff_forall_ne_some.2 fun m hm => ?_
    obtain ⟨hlong, -⟩ := tryDecode_bounds hm
    omega
  · refine Option.eq_none_iff_forall_ne_some.2 fun m hm => ?_
    obtain ⟨a0, a1, more, logical, ha, -, h0, h1, -⟩ := tryDecode_eq_some hm
    cases hes.symm.trans ha
    rw [expected] at h0 h1
    simp [h0, h1] at hsync
  · obtain ⟨a0, a1, more, logical, ha, -, -, -, -, rfl⟩ := tryDecode_eq_some hm
    cases hes.symm.trans ha
    rfl
  · obtain ⟨e0, e1, more, logical, rfl, -, -, -, hw, rfl⟩ := tryDecode_eq_some hm
    obtain ⟨f0, f1, ps, h, l, rest, rfl, hf, hps, hn, hmark⟩ := walk_eq_some_iff.1 hw
    obtain ⟨hh, hl⟩ := isMarker_iff.1 hmark
    have hraw := flatMap_length_two expand expand_length logical
    have hrc : ps.length = 2 * logical.length := by simpa [hraw] using congrArg List.length hps
    exact ⟨e0, e1, f0, f1, ps, h, l, rest, rfl, hf, hrc.symm, fun k p hk => hraw ▸ classify_eq_testBit hps hk, hn, hh, hl⟩
  · rintro e0 e1 f0 f1 ps h l rest logical rfl hlen h0 h1 hf hps hn hh hl
    have hw := walk_eq_some_iff.2 ⟨f0, f1, ps, h, l, rest, rfl, hf, hps, hn, isMarker_iff.2 ⟨hh, hl⟩⟩
    have hrc : ps.length = 2 * logical.length := by
      simpa [flatMap_length_two _ expand_length] using congrArg List.length hps
    exact ⟨_, tryDecode_of_walk hlen h0 h1 hw, hrc.symm, rfl⟩

/-- With the gate passed, a decode is the sync test and then the walk (R163 to R165). -/
theorem tryDecode_of_long {e0 e1 : Nat} {rest : List Nat} (prof : Profile) (hlen : 48 < (e0 :: e1 :: rest).length) :
    tryDecode (e0 :: e1 :: rest) prof =
      if within e0 (expected prof prof.syncHigh) && within e1 (expected prof prof.syncLow) then
        (walk prof false rest).bind (finalize prof e0 e1)
      else none := by
  rw [tryDecode, if_neg (by rw [minEdges]; omega)]

/-- Settles O39: what the walk answers on p it answers on p with anything after it. -/
theorem entriesAfterMarkerIgnored : Obligations.EntriesAfterMarkerIgnored := by
  refine fun p x y prof => ⟨fun raw hw hx hy => ?_, fun m hm => ?_⟩
  · match p with
    | [] | [_] => cases hw
    | e0 :: e1 :: rest =>
      have hw : walk prof false rest = some raw := hw
      simp only [List.cons_append] at hx hy ⊢
      rw [tryDecode_of_long prof hx, tryDecode_of_long prof hy, walk_append x hw, walk_append y hw]
  · obtain ⟨e0, e1, rest, logical, rfl, hlen, h0, h1, hw, rfl⟩ := tryDecode_eq_some hm
    have hlong : 48 < (e0 :: e1 :: (rest ++ x)).length := by
      simp only [List.length_cons, List.length_append] at hlen ⊢
      omega
    exact tryDecode_of_walk hlong h0 h1 (walk_append x hw)

/-! ## What a Match holds -/

/-- A stretch of a bit string, read as a number, is the field of the whole string's number above what follows it. -/
theorem bitsValue_append_append (as bs cs : List Bool) :
    bitsValue (as ++ (bs ++ cs)) / 2 ^ cs.length % 2 ^ bs.length = bitsValue bs := by
  rw [bitsValue_append, bitsValue_append, List.length_append, pow_add, ← mul_assoc, ← add_assoc, ← add_mul,
    Nat.add_comm, Nat.add_mul_div_right _ _ (by positivity), Nat.div_eq_of_lt (bitsValue_lt cs), Nat.zero_add, Nat.add_comm,
    Nat.add_mul_mod_self_right, Nat.mod_eq_of_lt (bitsValue_lt bs)]

/-- Doubled bit k of a doubled bit string: "01" for a 0, "10" for a 1 (R80, R173). -/
theorem doubled_pair {logical : List Bool} {k : Nat} (hk : k < logical.length) :
    bitsValue (logical.flatMap expand) / 2 ^ (2 * (logical.length - 1 - k)) % 4 = if logical[k] then 2 else 1 := by
  have hsplit : logical.flatMap expand =
      (logical.take k).flatMap expand ++ (expand logical[k] ++ (logical.drop (k + 1)).flatMap expand) := by
    rw [← List.flatMap_cons, ← List.drop_eq_getElem_cons hk, ← List.flatMap_append, List.take_append_drop]
  have hrest : ((logical.drop (k + 1)).flatMap expand).length = 2 * (logical.length - 1 - k) := by
    rw [flatMap_length_two _ expand_length, List.length_drop]
    omega
  have hfield := bitsValue_append_append ((logical.take k).flatMap expand) (expand logical[k])
    ((logical.drop (k + 1)).flatMap expand)
  rw [← hsplit, hrest, expand_length] at hfield
  calc bitsValue (logical.flatMap expand) / 2 ^ (2 * (logical.length - 1 - k)) % 4
    _ = bitsValue (expand logical[k]) := hfield
    _ = if logical[k] then 2 else 1 := by cases logical[k] <;> rfl

/-- Settles O40: the raw pattern is the code's bits, each doubled. -/
theorem matchUndoublesRawPattern : Obligations.MatchUndoublesRawPattern := by
  intro es prof m hm
  obtain ⟨-, hrc, -, hcode, hraw⟩ := tryDecode_bounds hm
  obtain ⟨e0, e1, rest, logical, -, -, -, -, -, rfl⟩ := tryDecode_eq_some hm
  dsimp only at *
  refine ⟨by omega, by omega, hraw, hcode, fun k hk => ?_⟩
  have hk : k < logical.length := by omega
  rw [testBit_bitsValue hk, ← doubled_pair hk, show 2 * logical.length - 2 - 2 * k = 2 * (logical.length - 1 - k) by omega]

/-- Settles O41: 256 entries leave room for 62 bits, and the sync is at least two units long. -/
theorem matchBounds : Obligations.MatchBounds := by
  intro es prof m hm hlen hent
  obtain ⟨hmin, hrc, hwalk, hcode, hraw⟩ := tryDecode_bounds hm
  have hbl : m.bitLength ≤ 62 := by omega
  refine ⟨hmin, by omega, hbl, hcode.trans_le (Nat.pow_le_pow_right (by omega) hbl),
    hraw.trans_le (Nat.pow_le_pow_right (by omega) (by omega)), ?_⟩
  obtain ⟨e0, e1, rest, logical, rfl, -, -, -, -, rfl⟩ := tryDecode_eq_some hm
  have h0 := hent e0 (by simp)
  have h1 := hent e1 (by simp)
  obtain ⟨-, hhigh, hlow, -⟩ := prof.legal
  calc (e0 + e1) / (prof.syncHigh.toNat + prof.syncLow.toNat)
    _ ≤ (e0 + e1) / 2 := Nat.div_le_div_left (by omega) (by omega)
    _ < 2 ^ 32 := by omega

/-- With equal pairs the two deviations tie, and a tie is a 0 (R167). -/
theorem classify_ne_one_of_equal_pairs {prof : Profile} (hh : prof.zeroHigh = prof.oneHigh)
    (hl : prof.zeroLow = prof.oneLow) (h l : Nat) : classify prof h l ≠ some true := by
  have hfit : fitsZero prof h l = fitsOne prof h l := by rw [fitsZero, fitsOne, hh, hl]
  have hdev : devZero prof h l = devOne prof h l := by rw [devZero, devOne, hh, hl]
  cases ho : fitsOne prof h l with
  | false => simp [classify_eq_none_iff.2 ⟨hfit.trans ho, ho⟩]
  | true => simp [classify_of_zero_near (hfit.trans ho) fun _ => hdev.le]

/-- Every raw bit is what some pair classifies as (R166). -/
theorem classify_of_mem_walk {prof : Profile} {es : List Nat} {raw : List Bool} {b : Bool}
    (hw : walk prof false es = some raw) (hb : b ∈ raw) : ∃ h l, classify prof h l = some b := by
  obtain ⟨-, -, ps, -, -, -, -, -, hps, -⟩ := walk_eq_some_iff.1 hw
  have hmem : some b ∈ ps.map fun p => classify prof p.1 p.2 := hps ▸ List.mem_map_of_mem hb
  obtain ⟨p, -, hp⟩ := List.mem_map.1 hmem
  exact ⟨p.1, p.2, hp⟩

/-- Settles O42: doubling any bit puts a 1 in the raw pattern, and no pair reads as one. -/
theorem equalSymbolPairsMatchOnlyEmptyFrame : Obligations.EqualSymbolPairsMatchOnlyEmptyFrame := by
  intro es prof m hh hl hm
  obtain ⟨e0, e1, rest, logical, -, -, -, -, hw, rfl⟩ := tryDecode_eq_some hm
  match logical with
  | [] => rfl
  | b :: bs =>
    have hone : true ∈ (b :: bs).flatMap expand := by cases b <;> simp [expand]
    obtain ⟨h, l, hc⟩ := classify_of_mem_walk hw hone
    exact absurd hc (classify_ne_one_of_equal_pairs hh hl h l)

/-! ## The round trip of a frame -/

/-- The durations of a symbol's pair at the profile's own pulse length (R126, R161). -/
def symDurations (prof : Profile) : Bool → Nat × Nat
  | true => (expected prof prof.oneHigh, expected prof prof.oneLow)
  | false => (expected prof prof.zeroHigh, expected prof prof.zeroLow)

/-- The durations of a frame: the sync, one pair a symbol, the closing marker (R127). -/
theorem frame_durations (code : Code) (w : Nat) (prof : Profile) :
    ((frame code w prof prof.pulseLength).map fun op => op.dur.toNat) =
      expected prof prof.syncHigh :: expected prof prof.syncLow ::
        (((symbols code w).map (symDurations prof)).flatMap (fun p => [p.1, p.2]) ++
          [expected prof prof.syncHigh, expected prof prof.syncHigh]) := by
  have hsym (b : Bool) : (symOps prof prof.pulseLength b).map (fun op => op.dur.toNat) =
      [(symDurations prof b).1, (symDurations prof b).2] := by
    cases b <;> simp [symOps, symDurations, expected]
  simp [frame, syncOpenOps, closeMarkOps, expected, List.map_flatMap, List.flatMap_map, hsym]

theorem expected_inj {prof : Profile} {c d : UnitCount} (h : expected prof c = expected prof d) : c = d := by
  obtain ⟨hpl, -⟩ := prof.legal
  exact BitVec.eq_of_toNat_eq (Nat.eq_of_mul_eq_mul_right hpl h)

/-- A symbol's own durations classify as the symbol, where the two pairs differ (R166, R167). -/
theorem classify_symDurations {prof : Profile} (hne : ¬(prof.zeroHigh = prof.oneHigh ∧ prof.zeroLow = prof.oneLow))
    (b : Bool) : classify prof (symDurations prof b).1 (symDurations prof b).2 = some b := by
  cases b with
  | false =>
    refine classify_of_zero_near (fitsZero_iff.2 ⟨within_self _, within_self _⟩) fun _ => ?_
    simp [devZero, symDurations, absDiff]
  | true =>
    refine classify_of_one_nearer (fitsOne_iff.2 ⟨within_self _, within_self _⟩) fun _ => ?_
    have hdiff : ¬(expected prof prof.zeroHigh = expected prof prof.oneHigh ∧
        expected prof prof.zeroLow = expected prof prof.oneLow) :=
      fun ⟨hh, hl⟩ => hne ⟨expected_inj hh, expected_inj hl⟩
    simp only [devOne, devZero, symDurations, absDiff]
    omega

/-- The walk over the durations of a frame keeps the doubled data bits (R165 to R172). -/
theorem walk_frame {prof : Profile} (code : Code) (w : Nat)
    (hne : ¬(prof.zeroHigh = prof.oneHigh ∧ prof.zeroLow = prof.oneLow))
    (hmark : classify prof (expected prof prof.syncHigh) (expected prof prof.syncHigh) = none) :
    walk prof false (((symbols code w).map (symDurations prof)).flatMap (fun p => [p.1, p.2]) ++
      [expected prof prof.syncHigh, expected prof prof.syncHigh]) = some ((dataBits code w).flatMap expand) := by
  refine walk_eq_some_iff.2 ⟨_, _, ((dataBits code w).flatMap expand).map (symDurations prof), _, _, [], rfl, ?_, ?_,
    hmark, isMarker_iff.2 ⟨within_self _, within_self _⟩⟩
  · simp [classify_symDurations hne]
  · simp [classify_symDurations hne]

theorem bitsValue_dataBits {code : Code} {w : Nat} (hw : bitlen1 code.toNat ≤ w) :
    bitsValue (dataBits code w) = code.toNat := by
  have hpos := bitlen1_pos code.toNat
  rw [dataBits, bitsValue_msbBits, Nat.mod_eq_of_lt ((bitlen1_le_iff _ _ (by omega)).1 hw)]

/-- The sync of a transmitted frame measures the profile's own pulse length (R175). -/
theorem inferredPulse_expected (prof : Profile) :
    inferredPulse prof (expected prof prof.syncHigh) (expected prof prof.syncLow) = prof.pulseLength.toNat := by
  obtain ⟨-, hhigh, -⟩ := prof.legal
  rw [inferredPulse, expected, expected, ← Nat.add_mul, Nat.mul_div_cancel_left _ (by omega)]

/-- Settles O43: a width of at least 11 passes the gate, and the walk keeps the doubled data bits of the code. -/
theorem frameDecodesBack : Obligations.FrameDecodesBack := by
  intro code w prof hw11 hw62 hfit hne hz ho
  have hlen : 48 < ((frame code w prof prof.pulseLength).map fun op => op.dur.toNat).length := by
    rw [List.length_map, frame_length]
    omega
  rw [frame_durations] at hlen ⊢
  have hdec := tryDecode_of_walk hlen (within_self _) (within_self _)
    (walk_frame code w hne (classify_eq_none_iff.2 ⟨hz, ho⟩))
  exact ⟨_, hdec, bitsValue_dataBits hfit, dataBits_length code w, inferredPulse_expected prof⟩

end Sys2Proof.Machine
end

section
/-! PROOFS of 43_noise_filter.md. The noise check (R204, R212), the three paths of RX_EDGE (R201, R207 to R209), the event
of a boundary (R203, R205, R206), and the frame that a boundary's buffer never holds (R213, R215). -/

namespace Sys2Proof.Machine

/-! ## The noise check -/

/-- R13's ⊑ is the library's contiguous sublist. -/
theorem occursIn_iff_infix {s t : List Bool} : occursIn s t = true ↔ s <:+: t := by
  induction t with
  | nil => rw [occursIn, List.isEmpty_iff, List.infix_nil]
  | cons c t ih => rw [occursIn, Bool.or_eq_true, List.isPrefixOf_iff_prefix, ih, List.infix_cons_iff]

theorem occursIn_eq_false_iff {s t : List Bool} : occursIn s t = false ↔ ¬s <:+: t := by
  rw [← occursIn_iff_infix, Bool.not_eq_true]

/-- "0000" leads the low n bits exactly when the topmost four of them are 0. -/
theorem noiseRun_prefix_msbBits_iff {v n : Nat} :
    noiseRun <+: msbBits v n ↔ ∃ k, k + 4 = n ∧ v / 2 ^ k % 16 = 0 := by
  obtain hn | hn := lt_or_ge n 4
  · constructor
    · intro h
      have hlen : 4 ≤ n := by simpa [noiseRun] using h.length_le
      omega
    · rintro ⟨k, rfl, -⟩
      omega
  · obtain ⟨k, rfl⟩ := Nat.exists_eq_add_of_le' hn
    have hbits : noiseRun <+: msbBits v (k + 4) ↔ v.testBit (k + 3) = false ∧ v.testBit (k + 2) = false ∧
        v.testBit (k + 1) = false ∧ v.testBit k = false := by
      simp [noiseRun, msbBits, List.cons_prefix_cons, eq_comm (a := false)]
    have hfield : (∃ j, j + 4 = k + 4 ∧ v / 2 ^ j % 16 = 0) ↔ v / 2 ^ k % 16 = 0 := by simp
    rw [hbits, hfield]
    simp only [Nat.testBit_eq_decide_div_mod_eq, pow_add, ← Nat.div_div_eq_div_mul, decide_eq_false_iff_not]
    omega

/-- "0000" stands somewhere in the low n bits exactly when four of them in a row are 0. -/
theorem noiseRun_infix_msbBits_iff {v n : Nat} :
    noiseRun <:+: msbBits v n ↔ ∃ k, k + 4 ≤ n ∧ v / 2 ^ k % 16 = 0 := by
  induction n with
  | zero => simp [msbBits, noiseRun]
  | succ n ih =>
    rw [msbBits, List.infix_cons_iff, ← msbBits, noiseRun_prefix_msbBits_iff, ih]
    constructor
    · rintro (⟨k, hk, hz⟩ | ⟨k, hk, hz⟩) <;> exact ⟨k, by omega, hz⟩
    · rintro ⟨k, hk, hz⟩
      obtain hlast | hrest : k + 4 = n + 1 ∨ k + 4 ≤ n := by omega
      · exact .inl ⟨k, hlast, hz⟩
      · exact .inr ⟨k, hrest, hz⟩

/-- R204 as a test of the rendering. -/
theorem noiseOk_iff {raw : Nat} : noiseOk raw = true ↔ ¬noiseRun <:+: render raw ∧ 32 < (render raw).length := by
  rw [noiseOk, Bool.and_eq_true, Bool.not_eq_true', occursIn_eq_false_iff, decide_eq_true_iff, noiseMinLen,
    gt_iff_lt]

theorem lt_render_length_iff (raw : Nat) : 32 < (render raw).length ↔ 2 ^ 32 ≤ raw := by
  rw [render_length, ← not_le, bitlen1_le_iff _ _ (by omega), not_lt]

/-- Settles O44: the rendering's length is the number's size, and a run of its bits is a field of the number. -/
theorem noiseCheckIntegerForm : Obligations.NoiseCheckIntegerForm := by
  refine fun raw => ⟨noiseOk_iff, ?_⟩
  rw [noiseOk_iff, lt_render_length_iff, render, noiseRun_infix_msbBits_iff, and_comm, ge_iff_le]

/-- No doubled bit of a Match's raw pattern is "00" (R173). -/
theorem raw_pair_ne_zero {es : List Nat} {prof : Profile} {m : Match} (h : tryDecode es prof = some m) {j : Nat}
    (hj : j < m.bitLength) : m.raw / 2 ^ (2 * j) % 4 ≠ 0 := by
  obtain ⟨heven, hbl, -, -, hpair⟩ := matchUndoublesRawPattern es prof m h
  have hj' := hpair (m.bitLength - 1 - j) (by omega)
  rw [show m.rc - 2 - 2 * (m.bitLength - 1 - j) = 2 * j by omega] at hj'
  rw [hj']
  split
  · exact two_ne_zero
  · exact one_ne_zero

/-- R212: four bits in a row of a raw pattern hold a whole doubled bit. -/
theorem not_noiseRun_infix_of_tryDecode {es : List Nat} {prof : Profile} {m : Match} (h : tryDecode es prof = some m) :
    ¬noiseRun <:+: render m.raw := by
  rw [render, noiseRun_infix_msbBits_iff]
  rintro ⟨k, hk, hz⟩
  obtain ⟨-, -, -, -, hraw⟩ := tryDecode_bounds h
  have hlen : bitlen1 m.raw ≤ max 1 (2 * m.bitLength) :=
    (bitlen1_le_iff _ _ (by omega)).2 (hraw.trans_le (Nat.pow_le_pow_right (by omega) (by omega)))
  obtain ⟨j, rfl | rfl⟩ := Nat.even_or_odd' k
  · exact raw_pair_ne_zero h (j := j) (by omega) (by omega)
  · refine raw_pair_ne_zero h (j := j + 1) (by omega) ?_
    rw [show 2 * (j + 1) = 2 * j + 1 + 1 by omega, pow_succ, ← Nat.div_div_eq_div_mul]
    omega

/-- A raw pattern has a 1 in each of its doubled bits, so it is at least as large as any of their places. -/
theorem two_pow_le_raw {es : List Nat} {prof : Profile} {m : Match} (h : tryDecode es prof = some m) {j : Nat}
    (hj : j < m.bitLength) : 2 ^ (2 * j) ≤ m.raw := by
  by_contra hlt
  exact raw_pair_ne_zero h hj (by rw [Nat.div_eq_of_lt (by omega)])

/-- Settles O45: a Match passes the first half of the noise check, and 17 doubled bits are more than 32 bits. -/
theorem matchPassesNoiseByLengthOnly : Obligations.MatchPassesNoiseByLengthOnly := by
  intro es prof m h
  have hrun := not_noiseRun_infix_of_tryDecode h
  refine ⟨occursIn_eq_false_iff.2 hrun, bitLength_of_noiseOk h, fun hbl => ?_⟩
  exact noiseOk_iff.2 ⟨hrun, (lt_render_length_iff _).2 (two_pow_le_raw h (j := 16) (by omega))⟩

/-! ## The paths of RX_EDGE -/

/-- A decode at a boundary leaves everything but the event log. -/
theorem decodeAtBoundary_eq_withEventLog (s : State) :
    (decodeAtBoundary s).1 = { s with eventLog := (decodeAtBoundary s).1.eventLog } := by
  obtain e | ⟨p, m, -, -, e⟩ := decodeAtBoundary_state s
  · rw [e]
  · rw [e]; rfl

@[simp] theorem rxEdge_rxLastTs (ts : Stamp) (s : State) : (rxEdge ts s).1.rxLastTs = ts := by
  obtain ⟨-, e⟩ | ⟨-, -, e⟩ | ⟨-, -, e⟩ := rxEdge_cases ts s <;> rw [e]
  · rw [decodeAtBoundary_eq_withEventLog]; rfl
  · rfl
  · rfl

/-- Settles O46: subtraction of 32-bit words wraps, and every path keeps the timestamp. -/
theorem edgeDurationWraps : Obligations.EdgeDurationWraps := by
  refine fun ts s => ⟨?_, _, exec_rxEdge ts s, rxEdge_rxLastTs ts s⟩
  have hlast := s.rxLastTs.isLt
  rw [edgeDuration, BitVec.toNat_sub]
  omega

theorem appendEdge_rxCount_toNat {s : State} (hn : s.rxCount.toNat < 256) (d : Dur) :
    (s.appendEdge d).rxCount.toNat = s.rxCount.toNat + 1 := by
  rw [State.appendEdge_rxCount]
  bv_omega

/-- Settles O47: one entry is written, and with fewer than 256 held the count does not wrap. -/
theorem rxEdgeAppends : Obligations.RxEdgeAppends := by
  intro ts s hd hn
  refine ⟨_, exec_rxEdge ts s, ?_⟩
  rw [rxEdge_append hd hn]
  exact ⟨appendEdge_getElem (s.setLastTs ts) _, appendEdge_rxCount_toNat (s := s.setLastTs ts) hn _, rfl⟩

/-- Settles O48: the buffer is started anew, and no decode stands in the path. -/
theorem rxEdgeOverflowResets : Obligations.RxEdgeOverflowResets := by
  intro ts s hd hn
  refine ⟨_, exec_rxEdge ts s, ?_⟩
  rw [rxEdge_overflow hd hn]
  exact ⟨startBuffer_getElem (s.setLastTs ts) _, rfl⟩

/-- Settles O49: whatever the decode left, which is all but the event log, the buffer is started anew. -/
theorem rxEdgeBoundaryResets : Obligations.RxEdgeBoundaryResets := by
  intro ts s hd
  refine ⟨_, exec_rxEdge ts s, ?_⟩
  rw [rxEdge_boundary hd]
  refine ⟨startBuffer_getElem _ _, ?_⟩
  dsimp only
  rw [decodeAtBoundary_eq_withEventLog]
  rfl

/-! ## The event of a boundary -/

/-- Every entry of the table has an index that LOOKUP answers it at (R100, R101). -/
theorem exists_lookup_of_getElem? {t : ProtoTable} {k : Nat} {prof : Profile} (h : t.profiles[k]? = some prof) :
    ∃ i : ProtoIdx, i.toNat = k + 1 ∧ lookup t i = some prof := by
  obtain ⟨hk, -⟩ := List.getElem?_eq_some_iff.1 h
  have hmax := t.bounded
  have hi : (BitVec.ofNat 8 (k + 1)).toNat = k + 1 := by rw [BitVec.toNat_ofNat]; omega
  exact ⟨_, hi, (lookup_of_toNat_eq_succ hi).trans h⟩

/-- The dispatch answers the first Match (R203). -/
theorem State.FirstMatch.decodeBuffer {s : State} {p : ProtoIdx} {m : Match} (h : s.FirstMatch p m) :
    s.decodeBuffer = some (p.toNat, m) := by
  obtain ⟨⟨prof, hl, hm⟩, hno⟩ := h
  obtain ⟨k, hp, hk⟩ := lookup_eq_some_iff.1 hl
  refine firstMatch_eq_some_iff.2 ⟨k, prof, by omega, hk, hm, fun j q hj hq => ?_⟩
  obtain ⟨i, hi, hlq⟩ := exists_lookup_of_getElem? hq
  exact hno i q (by omega) hlq

/-- With no Match the dispatch answers nothing (R203, R243). -/
theorem State.NoMatch.decodeBuffer {s : State} (h : s.NoMatch) : s.decodeBuffer = none := by
  refine firstMatch_eq_none_iff.2 fun q hq => ?_
  obtain ⟨k, hk⟩ := List.mem_iff_getElem?.1 hq
  obtain ⟨i, -, hl⟩ := exists_lookup_of_getElem? hk
  exact h i q hl

theorem decodeAtBoundary_of_none {s : State} (h : s.decodeBuffer = none) : (decodeAtBoundary s).1 = s := by
  simp only [decodeAtBoundary, h]

theorem decodeAtBoundary_of_noise {s : State} {p : Nat} {m : Match} (h : s.decodeBuffer = some (p, m))
    (hn : noiseOk m.raw = false) : (decodeAtBoundary s).1 = s := by
  simp [decodeAtBoundary, h, hn]

theorem decodeAtBoundary_of_kept {s : State} {p : Nat} {m : Match} (h : s.decodeBuffer = some (p, m))
    (hn : noiseOk m.raw = true) : (decodeAtBoundary s).1 = s.emitEvent (eventOf s p m) := by
  simp only [decodeAtBoundary, h, if_pos hn]

/-- The fields of an event are wide enough for what a Match of the buffer holds (R180, R206). -/
theorem eventOf_fields {s : State} {prof : Profile} {m : Match} (hn : s.rxCount.toNat ≤ 256)
    (h : tryDecode s.entries prof = some m) (p : ProtoIdx) :
    (eventOf s p.toNat m).protocol = p ∧ (eventOf s p.toNat m).code.toNat = m.code ∧
      (eventOf s p.toNat m).bitLength.toNat = m.bitLength ∧ (eventOf s p.toNat m).pulseLengthUs.toNat = m.pulseLengthUs := by
  obtain ⟨-, -, hbl, hcode, -, hpulse⟩ := matchBounds _ prof m h ((entries_length hn).trans_le hn) fun _ => entries_lt
  simp only [eventOf, BitVec.toNat_ofNat]
  exact ⟨by simp, by omega, by omega, by omega⟩

/-- Settles O50: the first Match is the dispatch's answer, and the noise check keeps its event or drops it. -/
theorem rxEdgeBoundaryEvent : Obligations.RxEdgeBoundaryEvent := by
  intro ts s hd hn
  refine ⟨_, exec_rxEdge ts s, ?_⟩
  rw [rxEdge_boundary hd, State.startBuffer_eventLog]
  refine ⟨fun p m hfirst hok => ?_, fun p m hfirst hnoise => ?_, fun hnone => ?_⟩
  · rw [decodeAtBoundary_of_kept (s := s.setLastTs ts) hfirst.decodeBuffer hok]
    obtain ⟨⟨prof, -, hm⟩, -⟩ := hfirst
    obtain ⟨hproto, hcode, hbl, hpulse⟩ := eventOf_fields (s := s.setLastTs ts) hn hm p
    exact ⟨_, rfl, hproto, hcode, hbl, hpulse, rfl, rfl⟩
  · rw [decodeAtBoundary_of_noise (s := s.setLastTs ts) hfirst.decodeBuffer hnoise]
    rfl
  · rw [decodeAtBoundary_of_none (s := s.setLastTs ts) hnone.decodeBuffer]
    rfl

/-! ## A frame without jitter -/

/-- The k-th entry a decode reads is RXB[k] (R203). -/
theorem rxb_of_entries_getElem? {s : State} {k e : Nat} (h : s.entries[k]? = some e) :
    ∃ hk : k < rxCapacity, s.rxb[k].toNat = e := by
  rw [State.entries, State.buffer, List.getElem?_map, Option.map_eq_some_iff] at h
  obtain ⟨d, hd, rfl⟩ := h
  obtain ⟨hk, rfl⟩ := List.getElem?_eq_some_iff.1 hd
  rw [List.length_take, Vector.length_toList] at hk
  exact ⟨by omega, by simp⟩

/-- Where the buffer begins with a frame's durations, RXB[k] is the duration of op k. -/
theorem rxb_of_durations_prefix {s : State} {f : List DriveOp} {k : Nat} {op : DriveOp}
    (h : (f.map fun op => op.dur.toNat) <+: s.entries) (hop : f[k]? = some op) :
    ∃ hk : k < rxCapacity, s.rxb[k].toNat = op.dur.toNat := by
  obtain ⟨hk, rfl⟩ := List.getElem?_eq_some_iff.1 hop
  have hentry := List.prefix_iff_getElem?.1 h k (by rwa [List.length_map])
  exact rxb_of_entries_getElem? (by rw [hentry, List.getElem_map])

/-- Settles O51: the closing marker is as long as the opening high, and after the first entry none is above 2000. -/
theorem zeroJitterFrameNeverHeld : Obligations.ZeroJitterFrameNeverHeld := by
  rintro s code w prof ⟨-, -, hbound⟩ hfirst hframe
  obtain ⟨_, hopen⟩ := rxb_of_durations_prefix hframe (frame_zero ..)
  obtain ⟨hk, hclose⟩ := rxb_of_durations_prefix hframe (frame_last ..)
  have hshort : s.rxb[4 * w + 5].toNat ≤ 2000 := hbound ⟨4 * w + 5, hk⟩ (by simp)
  omega

end Sys2Proof.Machine
end
